-- ==== Sys2Proof/Word.lean ====
section
/-! DEFINITION. The widths of the machine (00_scope.md R6): bytes, 16-bit words, and the plain list form of a memory. -/

namespace Sys2Proof

/-- A byte: the width of A, X, Y, SP, the data bus and every memory cell (R6). -/
abbrev Byte := BitVec 8

/-- A 16-bit word: PC, CPU addresses and the PPU address `v` (R6). -/
abbrev Word := BitVec 16

/-- The five-bit registers of MMC1 (R95). -/
abbrev Five := BitVec 5

/-- One storage array (RAM, OAM, a ROM, …): the cells that hold something else than `Memory.unlisted`. -/
abbrev Memory := List Host.Cell

end Sys2Proof
end

