-- ==== Sys2Proof/Config.lean ====
section
/-! DEFINITION. What an implementation fixes, and the free inputs the spec leaves open at a read: constants without a
body, so that nothing can be proved of their values. -/

namespace Sys2Proof

/-- VBLANK_DOT (R7, R340, D10): which dot of scanlines 241 and 261 is "the first dot". OPEN in the spec: 0 or 1. Log entry 5. -/
opaque Config.vblankDot : Fin 2

/-- DRAW (R7, R71, D19): PPUSTATUS bits 6..0 at the n-th free read. Log entry 6. -/
opaque Config.draw : Nat → BitVec 7

/-- BUTTONS (R7, R86): the eight button states (bit i is BUTTONS[i]) at the n-th free read, where the host has said
nothing. Log entry 7. -/
opaque Config.buttons : Nat → Byte

end Sys2Proof
end

