-- ==== Sys2Proof/Syntax.lean ====
section
/-! DEFINITION. The instructions: one constructor per row of spec/opcode_table.json (30_encoding.md R124), its mnemonic and
its addressing mode in its name. An operand is the byte or the word that follows the opcode (R120, R122). -/

namespace Sys2Proof

inductive Instr where
  -- Loads, stores, register transfers and stack instructions (41_load_store_transfer.md R200–R216)
  /-- `LDA #$nn`, $A9 (R201). -/
  | ldaImm (v : Byte)
  /-- `LDA $nn`, $A5 (R201). -/
  | ldaZp (zp : Byte)
  /-- `LDA $nn,X`, $B5 (R201). -/
  | ldaZpX (zp : Byte)
  /-- `LDA $nnnn`, $AD (R201). -/
  | ldaAbs (addr : Word)
  /-- `LDA $nnnn,X`, $BD (R201). -/
  | ldaAbsX (addr : Word)
  /-- `LDA $nnnn,Y`, $B9 (R201). -/
  | ldaAbsY (addr : Word)
  /-- `LDA ($nn,X)`, $A1 (R201). -/
  | ldaIndX (zp : Byte)
  /-- `LDA ($nn),Y`, $B1 (R201). -/
  | ldaIndY (zp : Byte)
  /-- `LDX #$nn`, $A2 (R202). -/
  | ldxImm (v : Byte)
  /-- `LDX $nn`, $A6 (R202). -/
  | ldxZp (zp : Byte)
  /-- `LDX $nn,Y`, $B6 (R202). -/
  | ldxZpY (zp : Byte)
  /-- `LDX $nnnn`, $AE (R202). -/
  | ldxAbs (addr : Word)
  /-- `LDX $nnnn,Y`, $BE (R202). -/
  | ldxAbsY (addr : Word)
  /-- `LDY #$nn`, $A0 (R203). -/
  | ldyImm (v : Byte)
  /-- `LDY $nn`, $A4 (R203). -/
  | ldyZp (zp : Byte)
  /-- `LDY $nn,X`, $B4 (R203). -/
  | ldyZpX (zp : Byte)
  /-- `LDY $nnnn`, $AC (R203). -/
  | ldyAbs (addr : Word)
  /-- `LDY $nnnn,X`, $BC (R203). -/
  | ldyAbsX (addr : Word)
  /-- `STA $nn`, $85 (R204). -/
  | staZp (zp : Byte)
  /-- `STA $nn,X`, $95 (R204). -/
  | staZpX (zp : Byte)
  /-- `STA $nnnn`, $8D (R204). -/
  | staAbs (addr : Word)
  /-- `STA $nnnn,X`, $9D (R204). -/
  | staAbsX (addr : Word)
  /-- `STA $nnnn,Y`, $99 (R204). -/
  | staAbsY (addr : Word)
  /-- `STA ($nn,X)`, $81 (R204). -/
  | staIndX (zp : Byte)
  /-- `STA ($nn),Y`, $91 (R204). -/
  | staIndY (zp : Byte)
  /-- `STX $nn`, $86 (R205). -/
  | stxZp (zp : Byte)
  /-- `STX $nn,Y`, $96 (R205). -/
  | stxZpY (zp : Byte)
  /-- `STX $nnnn`, $8E (R205). -/
  | stxAbs (addr : Word)
  /-- `STY $nn`, $84 (R206). -/
  | styZp (zp : Byte)
  /-- `STY $nn,X`, $94 (R206). -/
  | styZpX (zp : Byte)
  /-- `STY $nnnn`, $8C (R206). -/
  | styAbs (addr : Word)
  /-- `TAX`, $AA (R207). -/
  | tax
  /-- `TAY`, $A8 (R208). -/
  | tay
  /-- `TXA`, $8A (R209). -/
  | txa
  /-- `TYA`, $98 (R210). -/
  | tya
  /-- `TSX`, $BA (R211). -/
  | tsx
  /-- `TXS`, $9A (R212). -/
  | txs
  /-- `PHA`, $48 (R213). -/
  | pha
  /-- `PHP`, $08 (R214). -/
  | php
  /-- `PLA`, $68 (R215). -/
  | pla
  /-- `PLP`, $28 (R216). -/
  | plp
  -- Arithmetic, logic, compare, increment and shift instructions (42_arithmetic_logic.md R230–R249)
  /-- `ADC #$nn`, $69 (R231). -/
  | adcImm (v : Byte)
  /-- `ADC $nn`, $65 (R231). -/
  | adcZp (zp : Byte)
  /-- `ADC $nn,X`, $75 (R231). -/
  | adcZpX (zp : Byte)
  /-- `ADC $nnnn`, $6D (R231). -/
  | adcAbs (addr : Word)
  /-- `ADC $nnnn,X`, $7D (R231). -/
  | adcAbsX (addr : Word)
  /-- `ADC $nnnn,Y`, $79 (R231). -/
  | adcAbsY (addr : Word)
  /-- `ADC ($nn,X)`, $61 (R231). -/
  | adcIndX (zp : Byte)
  /-- `ADC ($nn),Y`, $71 (R231). -/
  | adcIndY (zp : Byte)
  /-- `SBC #$nn`, $E9 (R232). -/
  | sbcImm (v : Byte)
  /-- `SBC $nn`, $E5 (R232). -/
  | sbcZp (zp : Byte)
  /-- `SBC $nn,X`, $F5 (R232). -/
  | sbcZpX (zp : Byte)
  /-- `SBC $nnnn`, $ED (R232). -/
  | sbcAbs (addr : Word)
  /-- `SBC $nnnn,X`, $FD (R232). -/
  | sbcAbsX (addr : Word)
  /-- `SBC $nnnn,Y`, $F9 (R232). -/
  | sbcAbsY (addr : Word)
  /-- `SBC ($nn,X)`, $E1 (R232). -/
  | sbcIndX (zp : Byte)
  /-- `SBC ($nn),Y`, $F1 (R232). -/
  | sbcIndY (zp : Byte)
  /-- `AND #$nn`, $29 (R233). -/
  | andImm (v : Byte)
  /-- `AND $nn`, $25 (R233). -/
  | andZp (zp : Byte)
  /-- `AND $nn,X`, $35 (R233). -/
  | andZpX (zp : Byte)
  /-- `AND $nnnn`, $2D (R233). -/
  | andAbs (addr : Word)
  /-- `AND $nnnn,X`, $3D (R233). -/
  | andAbsX (addr : Word)
  /-- `AND $nnnn,Y`, $39 (R233). -/
  | andAbsY (addr : Word)
  /-- `AND ($nn,X)`, $21 (R233). -/
  | andIndX (zp : Byte)
  /-- `AND ($nn),Y`, $31 (R233). -/
  | andIndY (zp : Byte)
  /-- `ORA #$nn`, $09 (R234). -/
  | oraImm (v : Byte)
  /-- `ORA $nn`, $05 (R234). -/
  | oraZp (zp : Byte)
  /-- `ORA $nn,X`, $15 (R234). -/
  | oraZpX (zp : Byte)
  /-- `ORA $nnnn`, $0D (R234). -/
  | oraAbs (addr : Word)
  /-- `ORA $nnnn,X`, $1D (R234). -/
  | oraAbsX (addr : Word)
  /-- `ORA $nnnn,Y`, $19 (R234). -/
  | oraAbsY (addr : Word)
  /-- `ORA ($nn,X)`, $01 (R234). -/
  | oraIndX (zp : Byte)
  /-- `ORA ($nn),Y`, $11 (R234). -/
  | oraIndY (zp : Byte)
  /-- `EOR #$nn`, $49 (R235). -/
  | eorImm (v : Byte)
  /-- `EOR $nn`, $45 (R235). -/
  | eorZp (zp : Byte)
  /-- `EOR $nn,X`, $55 (R235). -/
  | eorZpX (zp : Byte)
  /-- `EOR $nnnn`, $4D (R235). -/
  | eorAbs (addr : Word)
  /-- `EOR $nnnn,X`, $5D (R235). -/
  | eorAbsX (addr : Word)
  /-- `EOR $nnnn,Y`, $59 (R235). -/
  | eorAbsY (addr : Word)
  /-- `EOR ($nn,X)`, $41 (R235). -/
  | eorIndX (zp : Byte)
  /-- `EOR ($nn),Y`, $51 (R235). -/
  | eorIndY (zp : Byte)
  /-- `BIT $nn`, $24 (R236). -/
  | bitZp (zp : Byte)
  /-- `BIT $nnnn`, $2C (R236). -/
  | bitAbs (addr : Word)
  /-- `CMP #$nn`, $C9 (R237). -/
  | cmpImm (v : Byte)
  /-- `CMP $nn`, $C5 (R237). -/
  | cmpZp (zp : Byte)
  /-- `CMP $nn,X`, $D5 (R237). -/
  | cmpZpX (zp : Byte)
  /-- `CMP $nnnn`, $CD (R237). -/
  | cmpAbs (addr : Word)
  /-- `CMP $nnnn,X`, $DD (R237). -/
  | cmpAbsX (addr : Word)
  /-- `CMP $nnnn,Y`, $D9 (R237). -/
  | cmpAbsY (addr : Word)
  /-- `CMP ($nn,X)`, $C1 (R237). -/
  | cmpIndX (zp : Byte)
  /-- `CMP ($nn),Y`, $D1 (R237). -/
  | cmpIndY (zp : Byte)
  /-- `CPX #$nn`, $E0 (R238). -/
  | cpxImm (v : Byte)
  /-- `CPX $nn`, $E4 (R238). -/
  | cpxZp (zp : Byte)
  /-- `CPX $nnnn`, $EC (R238). -/
  | cpxAbs (addr : Word)
  /-- `CPY #$nn`, $C0 (R239). -/
  | cpyImm (v : Byte)
  /-- `CPY $nn`, $C4 (R239). -/
  | cpyZp (zp : Byte)
  /-- `CPY $nnnn`, $CC (R239). -/
  | cpyAbs (addr : Word)
  /-- `INC $nn`, $E6 (R240). -/
  | incZp (zp : Byte)
  /-- `INC $nn,X`, $F6 (R240). -/
  | incZpX (zp : Byte)
  /-- `INC $nnnn`, $EE (R240). -/
  | incAbs (addr : Word)
  /-- `INC $nnnn,X`, $FE (R240). -/
  | incAbsX (addr : Word)
  /-- `DEC $nn`, $C6 (R241). -/
  | decZp (zp : Byte)
  /-- `DEC $nn,X`, $D6 (R241). -/
  | decZpX (zp : Byte)
  /-- `DEC $nnnn`, $CE (R241). -/
  | decAbs (addr : Word)
  /-- `DEC $nnnn,X`, $DE (R241). -/
  | decAbsX (addr : Word)
  /-- `INX`, $E8 (R242). -/
  | inx
  /-- `INY`, $C8 (R243). -/
  | iny
  /-- `DEX`, $CA (R244). -/
  | dex
  /-- `DEY`, $88 (R245). -/
  | dey
  /-- `ASL A`, $0A (R246). -/
  | aslAcc
  /-- `ASL $nn`, $06 (R246). -/
  | aslZp (zp : Byte)
  /-- `ASL $nn,X`, $16 (R246). -/
  | aslZpX (zp : Byte)
  /-- `ASL $nnnn`, $0E (R246). -/
  | aslAbs (addr : Word)
  /-- `ASL $nnnn,X`, $1E (R246). -/
  | aslAbsX (addr : Word)
  /-- `LSR A`, $4A (R247). -/
  | lsrAcc
  /-- `LSR $nn`, $46 (R247). -/
  | lsrZp (zp : Byte)
  /-- `LSR $nn,X`, $56 (R247). -/
  | lsrZpX (zp : Byte)
  /-- `LSR $nnnn`, $4E (R247). -/
  | lsrAbs (addr : Word)
  /-- `LSR $nnnn,X`, $5E (R247). -/
  | lsrAbsX (addr : Word)
  /-- `ROL A`, $2A (R248). -/
  | rolAcc
  /-- `ROL $nn`, $26 (R248). -/
  | rolZp (zp : Byte)
  /-- `ROL $nn,X`, $36 (R248). -/
  | rolZpX (zp : Byte)
  /-- `ROL $nnnn`, $2E (R248). -/
  | rolAbs (addr : Word)
  /-- `ROL $nnnn,X`, $3E (R248). -/
  | rolAbsX (addr : Word)
  /-- `ROR A`, $6A (R249). -/
  | rorAcc
  /-- `ROR $nn`, $66 (R249). -/
  | rorZp (zp : Byte)
  /-- `ROR $nn,X`, $76 (R249). -/
  | rorZpX (zp : Byte)
  /-- `ROR $nnnn`, $6E (R249). -/
  | rorAbs (addr : Word)
  /-- `ROR $nnnn,X`, $7E (R249). -/
  | rorAbsX (addr : Word)
  -- Jumps, subroutines, returns, BRK and branches (43_control_transfer.md R270–R283)
  /-- `JMP $nnnn`, $4C (R271). -/
  | jmpAbs (addr : Word)
  /-- `JMP ($nnnn)`, $6C (R271). -/
  | jmpInd (addr : Word)
  /-- `JSR $nnnn`, $20 (R272). -/
  | jsr (addr : Word)
  /-- `RTS`, $60 (R273). -/
  | rts
  /-- `RTI`, $40 (R274). -/
  | rti
  /-- `BRK`, $00 (R275). -/
  | brk
  /-- `BCC $tttt`, $90 (R276). -/
  | bcc (off : Byte)
  /-- `BCS $tttt`, $B0 (R277). -/
  | bcs (off : Byte)
  /-- `BEQ $tttt`, $F0 (R278). -/
  | beq (off : Byte)
  /-- `BMI $tttt`, $30 (R279). -/
  | bmi (off : Byte)
  /-- `BNE $tttt`, $D0 (R280). -/
  | bne (off : Byte)
  /-- `BPL $tttt`, $10 (R281). -/
  | bpl (off : Byte)
  /-- `BVC $tttt`, $50 (R282). -/
  | bvc (off : Byte)
  /-- `BVS $tttt`, $70 (R283). -/
  | bvs (off : Byte)
  -- Flag instructions and NOP (44_flags_misc.md R300–R308)
  /-- `CLC`, $18 (R301). -/
  | clc
  /-- `SEC`, $38 (R302). -/
  | sec
  /-- `CLI`, $58 (R303). -/
  | cli
  /-- `SEI`, $78 (R304). -/
  | sei
  /-- `CLD`, $D8 (R305). -/
  | cld
  /-- `SED`, $F8 (R306). -/
  | sed
  /-- `CLV`, $B8 (R307). -/
  | clv
  /-- `NOP`, $EA (R308). -/
  | nop
  deriving DecidableEq, Repr

end Sys2Proof
end

