-- ==== Sys2Proof/Decode.lean ====
section
/-! DEFINITION. The decoder (30_encoding.md R120–R126): one lookup of the opcode byte in a fixed table, then the operand
bytes, low byte first; and the encoder, written from the same table. -/

namespace Sys2Proof

/-- `{hi, lo}` of R8 and R50: the word whose low byte stands at the lower address. -/
def mkWord (lo hi : Byte) : Word := hi ++ lo

/-- Bits 7..0 of a word, the byte at the lower address (R50). -/
def lowByte (w : Word) : Byte := w.setWidth 8

/-- Bits 15..8 of a word, the byte at the higher address (R50). -/
def highByte (w : Word) : Byte := (w >>> 8).setWidth 8

/-- A legal entry of the opcode table (R123), by its format (R120): how the operand bytes complete the instruction. -/
inductive Entry where
  /-- Format F1: no operand byte. -/
  | f1 (i : Instr)
  /-- Format F2: one operand byte. -/
  | f2 (mk : Byte → Instr)
  /-- Format F3: two operand bytes, a word with its low byte first. -/
  | f3 (mk : Word → Instr)

/-- The number of operand bytes (R121). -/
def Entry.operandLength : Entry → Nat
  | .f1 _ => 0
  | .f2 _ => 1
  | .f3 _ => 2

/-- The row `0x` of the opcode map (R124), by the low digit of the opcode. -/
def tableRow0 : Nat → Option Entry
  | 0x0 => some (.f1 .brk)
  | 0x1 => some (.f2 .oraIndX)
  | 0x5 => some (.f2 .oraZp)
  | 0x6 => some (.f2 .aslZp)
  | 0x8 => some (.f1 .php)
  | 0x9 => some (.f2 .oraImm)
  | 0xA => some (.f1 .aslAcc)
  | 0xD => some (.f3 .oraAbs)
  | 0xE => some (.f3 .aslAbs)
  | _ => none

/-- The row `1x` of the opcode map (R124), by the low digit of the opcode. -/
def tableRow1 : Nat → Option Entry
  | 0x0 => some (.f2 .bpl)
  | 0x1 => some (.f2 .oraIndY)
  | 0x5 => some (.f2 .oraZpX)
  | 0x6 => some (.f2 .aslZpX)
  | 0x8 => some (.f1 .clc)
  | 0x9 => some (.f3 .oraAbsY)
  | 0xD => some (.f3 .oraAbsX)
  | 0xE => some (.f3 .aslAbsX)
  | _ => none

/-- The row `2x` of the opcode map (R124), by the low digit of the opcode. -/
def tableRow2 : Nat → Option Entry
  | 0x0 => some (.f3 .jsr)
  | 0x1 => some (.f2 .andIndX)
  | 0x4 => some (.f2 .bitZp)
  | 0x5 => some (.f2 .andZp)
  | 0x6 => some (.f2 .rolZp)
  | 0x8 => some (.f1 .plp)
  | 0x9 => some (.f2 .andImm)
  | 0xA => some (.f1 .rolAcc)
  | 0xC => some (.f3 .bitAbs)
  | 0xD => some (.f3 .andAbs)
  | 0xE => some (.f3 .rolAbs)
  | _ => none

/-- The row `3x` of the opcode map (R124), by the low digit of the opcode. -/
def tableRow3 : Nat → Option Entry
  | 0x0 => some (.f2 .bmi)
  | 0x1 => some (.f2 .andIndY)
  | 0x5 => some (.f2 .andZpX)
  | 0x6 => some (.f2 .rolZpX)
  | 0x8 => some (.f1 .sec)
  | 0x9 => some (.f3 .andAbsY)
  | 0xD => some (.f3 .andAbsX)
  | 0xE => some (.f3 .rolAbsX)
  | _ => none

/-- The row `4x` of the opcode map (R124), by the low digit of the opcode. -/
def tableRow4 : Nat → Option Entry
  | 0x0 => some (.f1 .rti)
  | 0x1 => some (.f2 .eorIndX)
  | 0x5 => some (.f2 .eorZp)
  | 0x6 => some (.f2 .lsrZp)
  | 0x8 => some (.f1 .pha)
  | 0x9 => some (.f2 .eorImm)
  | 0xA => some (.f1 .lsrAcc)
  | 0xC => some (.f3 .jmpAbs)
  | 0xD => some (.f3 .eorAbs)
  | 0xE => some (.f3 .lsrAbs)
  | _ => none

/-- The row `5x` of the opcode map (R124), by the low digit of the opcode. -/
def tableRow5 : Nat → Option Entry
  | 0x0 => some (.f2 .bvc)
  | 0x1 => some (.f2 .eorIndY)
  | 0x5 => some (.f2 .eorZpX)
  | 0x6 => some (.f2 .lsrZpX)
  | 0x8 => some (.f1 .cli)
  | 0x9 => some (.f3 .eorAbsY)
  | 0xD => some (.f3 .eorAbsX)
  | 0xE => some (.f3 .lsrAbsX)
  | _ => none

/-- The row `6x` of the opcode map (R124), by the low digit of the opcode. -/
def tableRow6 : Nat → Option Entry
  | 0x0 => some (.f1 .rts)
  | 0x1 => some (.f2 .adcIndX)
  | 0x5 => some (.f2 .adcZp)
  | 0x6 => some (.f2 .rorZp)
  | 0x8 => some (.f1 .pla)
  | 0x9 => some (.f2 .adcImm)
  | 0xA => some (.f1 .rorAcc)
  | 0xC => some (.f3 .jmpInd)
  | 0xD => some (.f3 .adcAbs)
  | 0xE => some (.f3 .rorAbs)
  | _ => none

/-- The row `7x` of the opcode map (R124), by the low digit of the opcode. -/
def tableRow7 : Nat → Option Entry
  | 0x0 => some (.f2 .bvs)
  | 0x1 => some (.f2 .adcIndY)
  | 0x5 => some (.f2 .adcZpX)
  | 0x6 => some (.f2 .rorZpX)
  | 0x8 => some (.f1 .sei)
  | 0x9 => some (.f3 .adcAbsY)
  | 0xD => some (.f3 .adcAbsX)
  | 0xE => some (.f3 .rorAbsX)
  | _ => none

/-- The row `8x` of the opcode map (R124), by the low digit of the opcode. -/
def tableRow8 : Nat → Option Entry
  | 0x1 => some (.f2 .staIndX)
  | 0x4 => some (.f2 .styZp)
  | 0x5 => some (.f2 .staZp)
  | 0x6 => some (.f2 .stxZp)
  | 0x8 => some (.f1 .dey)
  | 0xA => some (.f1 .txa)
  | 0xC => some (.f3 .styAbs)
  | 0xD => some (.f3 .staAbs)
  | 0xE => some (.f3 .stxAbs)
  | _ => none

/-- The row `9x` of the opcode map (R124), by the low digit of the opcode. -/
def tableRow9 : Nat → Option Entry
  | 0x0 => some (.f2 .bcc)
  | 0x1 => some (.f2 .staIndY)
  | 0x4 => some (.f2 .styZpX)
  | 0x5 => some (.f2 .staZpX)
  | 0x6 => some (.f2 .stxZpY)
  | 0x8 => some (.f1 .tya)
  | 0x9 => some (.f3 .staAbsY)
  | 0xA => some (.f1 .txs)
  | 0xD => some (.f3 .staAbsX)
  | _ => none

/-- The row `Ax` of the opcode map (R124), by the low digit of the opcode. -/
def tableRowA : Nat → Option Entry
  | 0x0 => some (.f2 .ldyImm)
  | 0x1 => some (.f2 .ldaIndX)
  | 0x2 => some (.f2 .ldxImm)
  | 0x4 => some (.f2 .ldyZp)
  | 0x5 => some (.f2 .ldaZp)
  | 0x6 => some (.f2 .ldxZp)
  | 0x8 => some (.f1 .tay)
  | 0x9 => some (.f2 .ldaImm)
  | 0xA => some (.f1 .tax)
  | 0xC => some (.f3 .ldyAbs)
  | 0xD => some (.f3 .ldaAbs)
  | 0xE => some (.f3 .ldxAbs)
  | _ => none

/-- The row `Bx` of the opcode map (R124), by the low digit of the opcode. -/
def tableRowB : Nat → Option Entry
  | 0x0 => some (.f2 .bcs)
  | 0x1 => some (.f2 .ldaIndY)
  | 0x4 => some (.f2 .ldyZpX)
  | 0x5 => some (.f2 .ldaZpX)
  | 0x6 => some (.f2 .ldxZpY)
  | 0x8 => some (.f1 .clv)
  | 0x9 => some (.f3 .ldaAbsY)
  | 0xA => some (.f1 .tsx)
  | 0xC => some (.f3 .ldyAbsX)
  | 0xD => some (.f3 .ldaAbsX)
  | 0xE => some (.f3 .ldxAbsY)
  | _ => none

/-- The row `Cx` of the opcode map (R124), by the low digit of the opcode. -/
def tableRowC : Nat → Option Entry
  | 0x0 => some (.f2 .cpyImm)
  | 0x1 => some (.f2 .cmpIndX)
  | 0x4 => some (.f2 .cpyZp)
  | 0x5 => some (.f2 .cmpZp)
  | 0x6 => some (.f2 .decZp)
  | 0x8 => some (.f1 .iny)
  | 0x9 => some (.f2 .cmpImm)
  | 0xA => some (.f1 .dex)
  | 0xC => some (.f3 .cpyAbs)
  | 0xD => some (.f3 .cmpAbs)
  | 0xE => some (.f3 .decAbs)
  | _ => none

/-- The row `Dx` of the opcode map (R124), by the low digit of the opcode. -/
def tableRowD : Nat → Option Entry
  | 0x0 => some (.f2 .bne)
  | 0x1 => some (.f2 .cmpIndY)
  | 0x5 => some (.f2 .cmpZpX)
  | 0x6 => some (.f2 .decZpX)
  | 0x8 => some (.f1 .cld)
  | 0x9 => some (.f3 .cmpAbsY)
  | 0xD => some (.f3 .cmpAbsX)
  | 0xE => some (.f3 .decAbsX)
  | _ => none

/-- The row `Ex` of the opcode map (R124), by the low digit of the opcode. -/
def tableRowE : Nat → Option Entry
  | 0x0 => some (.f2 .cpxImm)
  | 0x1 => some (.f2 .sbcIndX)
  | 0x4 => some (.f2 .cpxZp)
  | 0x5 => some (.f2 .sbcZp)
  | 0x6 => some (.f2 .incZp)
  | 0x8 => some (.f1 .inx)
  | 0x9 => some (.f2 .sbcImm)
  | 0xA => some (.f1 .nop)
  | 0xC => some (.f3 .cpxAbs)
  | 0xD => some (.f3 .sbcAbs)
  | 0xE => some (.f3 .incAbs)
  | _ => none

/-- The row `Fx` of the opcode map (R124), by the low digit of the opcode. -/
def tableRowF : Nat → Option Entry
  | 0x0 => some (.f2 .beq)
  | 0x1 => some (.f2 .sbcIndY)
  | 0x5 => some (.f2 .sbcZpX)
  | 0x6 => some (.f2 .incZpX)
  | 0x8 => some (.f1 .sed)
  | 0x9 => some (.f3 .sbcAbsY)
  | 0xD => some (.f3 .sbcAbsX)
  | 0xE => some (.f3 .incAbsX)
  | _ => none

/-- The opcode table (R123, R124): `none` for the 105 illegal bytes (R125). -/
def opcodeTable (op : Byte) : Option Entry :=
  let lo := op.toNat % 16
  match op.toNat / 16 with
  | 0x0 => tableRow0 lo
  | 0x1 => tableRow1 lo
  | 0x2 => tableRow2 lo
  | 0x3 => tableRow3 lo
  | 0x4 => tableRow4 lo
  | 0x5 => tableRow5 lo
  | 0x6 => tableRow6 lo
  | 0x7 => tableRow7 lo
  | 0x8 => tableRow8 lo
  | 0x9 => tableRow9 lo
  | 0xA => tableRowA lo
  | 0xB => tableRowB lo
  | 0xC => tableRowC lo
  | 0xD => tableRowD lo
  | 0xE => tableRowE lo
  | _ => tableRowF lo

/-- Why bytes are no instruction. -/
inductive Reject where
  /-- No byte at all. -/
  | empty
  /-- The opcode byte is one of the 105 illegal ones (R125). -/
  | illegal (op : Byte)
  /-- The opcode is legal and operand bytes are missing. -/
  | truncated (op : Byte)
  deriving DecidableEq, Repr

/-- Reads one instruction from the front of the bytes and answers it with the rest of them (R120–R126). -/
def decode : List Byte → Except Reject (Instr × List Byte)
  | [] => .error .empty
  | op :: rest =>
    match opcodeTable op with
    | none => .error (.illegal op)
    | some (.f1 i) => .ok (i, rest)
    | some (.f2 mk) =>
      match rest with
      | b1 :: rest => .ok (mk b1, rest)
      | [] => .error (.truncated op)
    | some (.f3 mk) =>
      match rest with
      | b1 :: b2 :: rest => .ok (mk (mkWord b1 b2), rest)
      | _ => .error (.truncated op)

/-- The opcode byte of an instruction (R124). -/
def Instr.opcode : Instr → Byte
  | .ldaImm _ => 0xA9
  | .ldaZp _ => 0xA5
  | .ldaZpX _ => 0xB5
  | .ldaAbs _ => 0xAD
  | .ldaAbsX _ => 0xBD
  | .ldaAbsY _ => 0xB9
  | .ldaIndX _ => 0xA1
  | .ldaIndY _ => 0xB1
  | .ldxImm _ => 0xA2
  | .ldxZp _ => 0xA6
  | .ldxZpY _ => 0xB6
  | .ldxAbs _ => 0xAE
  | .ldxAbsY _ => 0xBE
  | .ldyImm _ => 0xA0
  | .ldyZp _ => 0xA4
  | .ldyZpX _ => 0xB4
  | .ldyAbs _ => 0xAC
  | .ldyAbsX _ => 0xBC
  | .staZp _ => 0x85
  | .staZpX _ => 0x95
  | .staAbs _ => 0x8D
  | .staAbsX _ => 0x9D
  | .staAbsY _ => 0x99
  | .staIndX _ => 0x81
  | .staIndY _ => 0x91
  | .stxZp _ => 0x86
  | .stxZpY _ => 0x96
  | .stxAbs _ => 0x8E
  | .styZp _ => 0x84
  | .styZpX _ => 0x94
  | .styAbs _ => 0x8C
  | .tax => 0xAA
  | .tay => 0xA8
  | .txa => 0x8A
  | .tya => 0x98
  | .tsx => 0xBA
  | .txs => 0x9A
  | .pha => 0x48
  | .php => 0x08
  | .pla => 0x68
  | .plp => 0x28
  | .adcImm _ => 0x69
  | .adcZp _ => 0x65
  | .adcZpX _ => 0x75
  | .adcAbs _ => 0x6D
  | .adcAbsX _ => 0x7D
  | .adcAbsY _ => 0x79
  | .adcIndX _ => 0x61
  | .adcIndY _ => 0x71
  | .sbcImm _ => 0xE9
  | .sbcZp _ => 0xE5
  | .sbcZpX _ => 0xF5
  | .sbcAbs _ => 0xED
  | .sbcAbsX _ => 0xFD
  | .sbcAbsY _ => 0xF9
  | .sbcIndX _ => 0xE1
  | .sbcIndY _ => 0xF1
  | .andImm _ => 0x29
  | .andZp _ => 0x25
  | .andZpX _ => 0x35
  | .andAbs _ => 0x2D
  | .andAbsX _ => 0x3D
  | .andAbsY _ => 0x39
  | .andIndX _ => 0x21
  | .andIndY _ => 0x31
  | .oraImm _ => 0x09
  | .oraZp _ => 0x05
  | .oraZpX _ => 0x15
  | .oraAbs _ => 0x0D
  | .oraAbsX _ => 0x1D
  | .oraAbsY _ => 0x19
  | .oraIndX _ => 0x01
  | .oraIndY _ => 0x11
  | .eorImm _ => 0x49
  | .eorZp _ => 0x45
  | .eorZpX _ => 0x55
  | .eorAbs _ => 0x4D
  | .eorAbsX _ => 0x5D
  | .eorAbsY _ => 0x59
  | .eorIndX _ => 0x41
  | .eorIndY _ => 0x51
  | .bitZp _ => 0x24
  | .bitAbs _ => 0x2C
  | .cmpImm _ => 0xC9
  | .cmpZp _ => 0xC5
  | .cmpZpX _ => 0xD5
  | .cmpAbs _ => 0xCD
  | .cmpAbsX _ => 0xDD
  | .cmpAbsY _ => 0xD9
  | .cmpIndX _ => 0xC1
  | .cmpIndY _ => 0xD1
  | .cpxImm _ => 0xE0
  | .cpxZp _ => 0xE4
  | .cpxAbs _ => 0xEC
  | .cpyImm _ => 0xC0
  | .cpyZp _ => 0xC4
  | .cpyAbs _ => 0xCC
  | .incZp _ => 0xE6
  | .incZpX _ => 0xF6
  | .incAbs _ => 0xEE
  | .incAbsX _ => 0xFE
  | .decZp _ => 0xC6
  | .decZpX _ => 0xD6
  | .decAbs _ => 0xCE
  | .decAbsX _ => 0xDE
  | .inx => 0xE8
  | .iny => 0xC8
  | .dex => 0xCA
  | .dey => 0x88
  | .aslAcc => 0x0A
  | .aslZp _ => 0x06
  | .aslZpX _ => 0x16
  | .aslAbs _ => 0x0E
  | .aslAbsX _ => 0x1E
  | .lsrAcc => 0x4A
  | .lsrZp _ => 0x46
  | .lsrZpX _ => 0x56
  | .lsrAbs _ => 0x4E
  | .lsrAbsX _ => 0x5E
  | .rolAcc => 0x2A
  | .rolZp _ => 0x26
  | .rolZpX _ => 0x36
  | .rolAbs _ => 0x2E
  | .rolAbsX _ => 0x3E
  | .rorAcc => 0x6A
  | .rorZp _ => 0x66
  | .rorZpX _ => 0x76
  | .rorAbs _ => 0x6E
  | .rorAbsX _ => 0x7E
  | .jmpAbs _ => 0x4C
  | .jmpInd _ => 0x6C
  | .jsr _ => 0x20
  | .rts => 0x60
  | .rti => 0x40
  | .brk => 0x00
  | .bcc _ => 0x90
  | .bcs _ => 0xB0
  | .beq _ => 0xF0
  | .bmi _ => 0x30
  | .bne _ => 0xD0
  | .bpl _ => 0x10
  | .bvc _ => 0x50
  | .bvs _ => 0x70
  | .clc => 0x18
  | .sec => 0x38
  | .cli => 0x58
  | .sei => 0x78
  | .cld => 0xD8
  | .sed => 0xF8
  | .clv => 0xB8
  | .nop => 0xEA

/-- The operand bytes of an instruction, low byte first (R120, R122). -/
def Instr.operandBytes : Instr → List Byte
  | .ldaImm b => [b]
  | .ldaZp b => [b]
  | .ldaZpX b => [b]
  | .ldaAbs w => [lowByte w, highByte w]
  | .ldaAbsX w => [lowByte w, highByte w]
  | .ldaAbsY w => [lowByte w, highByte w]
  | .ldaIndX b => [b]
  | .ldaIndY b => [b]
  | .ldxImm b => [b]
  | .ldxZp b => [b]
  | .ldxZpY b => [b]
  | .ldxAbs w => [lowByte w, highByte w]
  | .ldxAbsY w => [lowByte w, highByte w]
  | .ldyImm b => [b]
  | .ldyZp b => [b]
  | .ldyZpX b => [b]
  | .ldyAbs w => [lowByte w, highByte w]
  | .ldyAbsX w => [lowByte w, highByte w]
  | .staZp b => [b]
  | .staZpX b => [b]
  | .staAbs w => [lowByte w, highByte w]
  | .staAbsX w => [lowByte w, highByte w]
  | .staAbsY w => [lowByte w, highByte w]
  | .staIndX b => [b]
  | .staIndY b => [b]
  | .stxZp b => [b]
  | .stxZpY b => [b]
  | .stxAbs w => [lowByte w, highByte w]
  | .styZp b => [b]
  | .styZpX b => [b]
  | .styAbs w => [lowByte w, highByte w]
  | .tax => []
  | .tay => []
  | .txa => []
  | .tya => []
  | .tsx => []
  | .txs => []
  | .pha => []
  | .php => []
  | .pla => []
  | .plp => []
  | .adcImm b => [b]
  | .adcZp b => [b]
  | .adcZpX b => [b]
  | .adcAbs w => [lowByte w, highByte w]
  | .adcAbsX w => [lowByte w, highByte w]
  | .adcAbsY w => [lowByte w, highByte w]
  | .adcIndX b => [b]
  | .adcIndY b => [b]
  | .sbcImm b => [b]
  | .sbcZp b => [b]
  | .sbcZpX b => [b]
  | .sbcAbs w => [lowByte w, highByte w]
  | .sbcAbsX w => [lowByte w, highByte w]
  | .sbcAbsY w => [lowByte w, highByte w]
  | .sbcIndX b => [b]
  | .sbcIndY b => [b]
  | .andImm b => [b]
  | .andZp b => [b]
  | .andZpX b => [b]
  | .andAbs w => [lowByte w, highByte w]
  | .andAbsX w => [lowByte w, highByte w]
  | .andAbsY w => [lowByte w, highByte w]
  | .andIndX b => [b]
  | .andIndY b => [b]
  | .oraImm b => [b]
  | .oraZp b => [b]
  | .oraZpX b => [b]
  | .oraAbs w => [lowByte w, highByte w]
  | .oraAbsX w => [lowByte w, highByte w]
  | .oraAbsY w => [lowByte w, highByte w]
  | .oraIndX b => [b]
  | .oraIndY b => [b]
  | .eorImm b => [b]
  | .eorZp b => [b]
  | .eorZpX b => [b]
  | .eorAbs w => [lowByte w, highByte w]
  | .eorAbsX w => [lowByte w, highByte w]
  | .eorAbsY w => [lowByte w, highByte w]
  | .eorIndX b => [b]
  | .eorIndY b => [b]
  | .bitZp b => [b]
  | .bitAbs w => [lowByte w, highByte w]
  | .cmpImm b => [b]
  | .cmpZp b => [b]
  | .cmpZpX b => [b]
  | .cmpAbs w => [lowByte w, highByte w]
  | .cmpAbsX w => [lowByte w, highByte w]
  | .cmpAbsY w => [lowByte w, highByte w]
  | .cmpIndX b => [b]
  | .cmpIndY b => [b]
  | .cpxImm b => [b]
  | .cpxZp b => [b]
  | .cpxAbs w => [lowByte w, highByte w]
  | .cpyImm b => [b]
  | .cpyZp b => [b]
  | .cpyAbs w => [lowByte w, highByte w]
  | .incZp b => [b]
  | .incZpX b => [b]
  | .incAbs w => [lowByte w, highByte w]
  | .incAbsX w => [lowByte w, highByte w]
  | .decZp b => [b]
  | .decZpX b => [b]
  | .decAbs w => [lowByte w, highByte w]
  | .decAbsX w => [lowByte w, highByte w]
  | .inx => []
  | .iny => []
  | .dex => []
  | .dey => []
  | .aslAcc => []
  | .aslZp b => [b]
  | .aslZpX b => [b]
  | .aslAbs w => [lowByte w, highByte w]
  | .aslAbsX w => [lowByte w, highByte w]
  | .lsrAcc => []
  | .lsrZp b => [b]
  | .lsrZpX b => [b]
  | .lsrAbs w => [lowByte w, highByte w]
  | .lsrAbsX w => [lowByte w, highByte w]
  | .rolAcc => []
  | .rolZp b => [b]
  | .rolZpX b => [b]
  | .rolAbs w => [lowByte w, highByte w]
  | .rolAbsX w => [lowByte w, highByte w]
  | .rorAcc => []
  | .rorZp b => [b]
  | .rorZpX b => [b]
  | .rorAbs w => [lowByte w, highByte w]
  | .rorAbsX w => [lowByte w, highByte w]
  | .jmpAbs w => [lowByte w, highByte w]
  | .jmpInd w => [lowByte w, highByte w]
  | .jsr w => [lowByte w, highByte w]
  | .rts => []
  | .rti => []
  | .brk => []
  | .bcc b => [b]
  | .bcs b => [b]
  | .beq b => [b]
  | .bmi b => [b]
  | .bne b => [b]
  | .bpl b => [b]
  | .bvc b => [b]
  | .bvs b => [b]
  | .clc => []
  | .sec => []
  | .cli => []
  | .sei => []
  | .cld => []
  | .sed => []
  | .clv => []
  | .nop => []

/-- The bytes of an instruction in address order (R120, R122). -/
def encode (i : Instr) : List Byte := i.opcode :: i.operandBytes

/-- Byte k of an instruction whose bits are numbered from the least significant bit of its first byte. -/
def tableByte (nbits w k : Nat) : Byte := BitVec.ofNat 8 (w % 2 ^ nbits / 256 ^ k)

/-- The three bytes (the longest instruction has three) of a word numbered as spec/opcode_table.json numbers it; the bits
from `nbits` on are 0. -/
def tableBytes (nbits w : Nat) : List Byte := [tableByte nbits w 0, tableByte nbits w 1, tableByte nbits w 2]

/-- What the decoder reads from such a word. -/
def decodeTableWord (nbits w : Nat) : Option Instr :=
  match decode (tableBytes nbits w) with
  | .ok (i, _) => some i
  | .error _ => none

end Sys2Proof
end

