-- ==== Sys2Proof/WellFormed.lean ====
section
/-! DEFINITION. What is accepted before anything runs: instructions, memories in canonical form, and cartridges. -/

namespace Sys2Proof

/-- Every term of `Instr` is an instruction: an operand's type has exactly the width its operand bytes have (R120), and no
operand value is reserved (R126). So there is nothing to refuse here; the words that are no instruction are refused by the
decoder, by name. -/
def Instr.wellFormed (_ : Instr) : Bool := true

/-- What a byte of memory that nothing has written reads as. The spec leaves MEM_INIT open (R372, D8); the test vectors of
95_test_vectors.md V10 start from zeroed memory. DESIGN CHOICE, unsafe: log entry 2. -/
def Memory.unlisted : Byte := 0

/-- The addresses rise strictly and each is below `size`. -/
def Memory.rising (size : Nat) : Memory → Bool
  | [] => true
  | [(a, _)] => decide (a < size)
  | (a, _) :: (b, e) :: rest => decide (a < b) && Memory.rising size ((b, e) :: rest)

/-- The canonical form of a storage array of `size` bytes: strictly rising addresses below `size`, and no cell that holds
what an unlisted address reads as. So two memories with the same bytes are the same list. -/
def Memory.wf (size : Nat) (m : Memory) : Bool :=
  Memory.rising size m && m.all fun c => c.2 != Memory.unlisted

/-- The two mappers the machine has (R90). -/
inductive Mapper where
  | nrom
  | mmc1
  deriving DecidableEq, Repr

/-- CART.mirroring (R7): a cartridge fixes one of two. -/
inductive CartMirroring where
  | horizontal
  | vertical
  deriving DecidableEq, Repr

/-- CART (R7): the cartridge, fixed for a run. `prg` holds the bytes of all 16-KiB PRG pages (page p at offset p·16384) and
`chr` those of all 8-KiB CHR pages. -/
structure Cart where
  mapper : Mapper
  prgPages : Nat
  prg : Memory
  chrPages : Nat
  chr : Memory
  mirroring : CartMirroring
  nromSram : Bool
  deriving DecidableEq, Repr

/-- What a cartridge image asks for, before it is accepted: the mapper by its number, and the four-screen bit (R90, R81). -/
structure CartImage where
  mapperNumber : Nat
  fourScreen : Bool
  prgPages : Nat
  prg : Memory
  chrPages : Nat
  chr : Memory
  mirroring : CartMirroring
  nromSram : Bool
  deriving DecidableEq, Repr

/-- Why an image has no CART value. -/
inductive CartReject where
  /-- Neither mapper 0 nor mapper 1 (R90: UnknownMapper). -/
  | unknownMapper (number : Nat)
  /-- The image asks for four-screen mirroring (R7, R81, D35). -/
  | fourScreen
  /-- No PRG page (R7: at least one). -/
  | noPrgPage
  /-- NROM with more than two PRG pages (R91, D27). -/
  | nromPrgPages (pages : Nat)
  /-- NROM with more than one CHR page (R92, D27). -/
  | nromChrPages (pages : Nat)
  /-- `prg` is no list of bytes of that many 16-KiB pages in canonical form. -/
  | prgBytes
  /-- `chr` is no list of bytes of that many 8-KiB pages in canonical form. -/
  | chrBytes
  deriving DecidableEq, Repr

/-- The active mapper, by its number (R90). -/
def Mapper.ofNumber : Nat → Option Mapper
  | 0 => some .nrom
  | 1 => some .mmc1
  | _ => none

/-- What is wrong with a cartridge, if anything (R7, R91, R92). -/
def Cart.reject (c : Cart) : Option CartReject :=
  if c.prgPages = 0 then some .noPrgPage
  else if c.mapper = .nrom ∧ 2 < c.prgPages then some (.nromPrgPages c.prgPages)
  else if c.mapper = .nrom ∧ 1 < c.chrPages then some (.nromChrPages c.chrPages)
  else if !Memory.wf (16384 * c.prgPages) c.prg then some .prgBytes
  else if !Memory.wf (8192 * c.chrPages) c.chr then some .chrBytes
  else none

/-- A cartridge a model accepts. -/
def Cart.wellFormed (c : Cart) : Bool := c.reject.isNone

/-- The CART value of an image, or why it is refused before load (R7, R81, R90–R92). -/
def CartImage.toCart (im : CartImage) : Except CartReject Cart :=
  match Mapper.ofNumber im.mapperNumber with
  | none => .error (.unknownMapper im.mapperNumber)
  | some mapper =>
    if im.fourScreen then .error .fourScreen
    else
      let c : Cart :=
        { mapper := mapper, prgPages := im.prgPages, prg := im.prg, chrPages := im.chrPages, chr := im.chr,
          mirroring := im.mirroring, nromSram := im.nromSram }
      match c.reject with
      | some r => .error r
      | none => .ok c

end Sys2Proof
end

