-- ==== Sys2Proof/Machine/State.lean ====
section
/-! DEFINITION. The state of the machine as plain data: the core's registers and bookkeeping (10_state.md R20–R38), the
devices it reaches through the bus (R40), the debug gate (60_exceptions.md R355–R359), the two kinds of stop, and the
state after reset (70_reset_and_hazards.md R370–R376). -/

namespace Sys2Proof.Machine

/-- The kinds of fault of the core, each with its info (60_exceptions.md R321). Each is raised by an access the spec says ends
the run (R320), so the model stops where the spec's machine stops: safe. -/
inductive FaultKind where
  /-- The fetched opcode byte is illegal (R125, R162); raised by the fetch. Safe. -/
  | unknownOpcode (pc0 : Word) (op : Byte)
  /-- A read of a write-only PPU port or of $4014 (R77, R85); raised by `memRead`. Safe. -/
  | invalidMmioRead (addr : Word)
  /-- A write of PPUSTATUS (R71); raised by `memWrite`. Safe. -/
  | invalidMmioWrite (addr : Word)
  /-- An address no device resolves (R65, R92, R93, R94, R103, R104); raised by `memRead` and `memWrite`. Safe. -/
  | unmappedAddress (addr : Word)
  /-- A read-modify-write on $8000–$FFFF under MMC1 (R105); raised by the RMW instructions before they read. Safe. -/
  | unmodelledMmc1Rmw (ea : Word)
  /-- A write of a constant operand or an access of a nil one (R163); no legal opcode raises it. Safe. -/
  | operandMisuse (pc0 : Word)
  deriving DecidableEq, Repr

/-- Why there is no step, other than a fault. -/
inductive Refusal where
  /-- Raised by `exec` for an instruction that has no meaning yet, by its mnemonic. Safe. -/
  | notModelled (mnemonic : String)
  /-- Raised by `step` when `status` is Stopped: no step is taken any more (R38, R359). Safe. -/
  | stopped
  /-- Raised by `load` for a cartridge image that is refused before the run (R7, R81, R90–R92). Safe. -/
  | cartridge (reason : CartReject)
  deriving DecidableEq, Repr

/-- `status` of R38. -/
inductive RunStatus where
  | running
  | faulted (kind : FaultKind)
  | stopped
  deriving DecidableEq, Repr

/-- The seven status flags, stored one by one (R20, R26). -/
structure Flags where
  n : Bool
  v : Bool
  b : Bool
  d : Bool
  i : Bool
  z : Bool
  c : Bool
  deriving DecidableEq, Repr

/-- The PPU as far as the core reaches it (20_memory.md R66–R82) and its position (60_exceptions.md R340). -/
structure Ppu where
  /-- PPUCTRL (R67). -/
  ctrl : Byte
  /-- PPUMASK (R68). -/
  mask : Byte
  /-- status[7], in vertical blank (R71, R340). -/
  vblank : Bool
  /-- status[6], the renderer's sprite-zero hit: cleared here (R340), and read as DRAW (R71). -/
  spriteZero : Bool
  /-- status[5], the renderer's sprite overflow: cleared here (R340), and read as DRAW (R71). -/
  spriteOverflow : Bool
  /-- OAMADDR (R69). -/
  oamaddr : Byte
  /-- The write toggle PPUSCROLL and PPUADDR share (R72). -/
  w : Bool
  scrollX : Byte
  scrollY : Byte
  /-- The latched high byte of a PPUADDR pair (R74). -/
  tHi : Byte
  /-- The VRAM address (R74). -/
  v : Word
  /-- The PPUDATA read buffer (R75). -/
  buf : Byte
  /-- OAM, 256 bytes (R70). -/
  oam : Memory
  /-- CIRAM, 2048 bytes (R81). -/
  ciram : Memory
  /-- Palette RAM, 32 bytes (R82). -/
  pal : Memory
  /-- 0..261 (R340). -/
  scanline : Nat
  /-- 0..340 (R340). -/
  dot : Nat
  deriving DecidableEq, Repr

/-- Controller #1 (R86). -/
structure Pad where
  /-- 0..8: the next button to be read. -/
  ptr : Nat
  strobe : Bool
  /-- What the host supplies as BUTTONS: `some b`, bit i of b is BUTTONS[i], held until the host changes it; `none`, the
  host has said nothing, and each read draws its button states from `Config.buttons` (log entry 7). -/
  buttons : Option Byte
  deriving DecidableEq, Repr

/-- The registers of MMC1 (R95). They stand still under NROM. -/
structure Mmc1 where
  shift : Five
  /-- 0..4: the bits loaded. -/
  count : Nat
  control : Five
  chr0 : Five
  chr1 : Five
  prg : Five
  booted : Bool
  deriving DecidableEq, Repr

/-- MODE (R7). -/
inductive RunMode where
  | run
  | debug
  deriving DecidableEq, Repr

/-- What the host can answer a waiting gate (R355). -/
inductive Signal where
  | continue
  | next
  | stop
  deriving DecidableEq, Repr

/-- A BreakState as far as it is state of its own (R356, R357): the PC, and the fault where one was the occasion. All else
that it shows is the machine itself at that moment, or the host's record. Log entry 9. -/
structure BreakState where
  pc : Word
  err : Option FaultKind
  deriving DecidableEq, Repr

/-- The break gate (60_exceptions.md R355–R359). Log entries 9 and 10. -/
structure Gate where
  mode : RunMode
  /-- BREAKS, as a strictly rising list (R358). -/
  breaks : List Word
  /-- True until the gate before the first step has been passed (R355, R375). -/
  first : Bool
  stepping : Bool
  /-- The gate has published its BreakState and waits for a signal. -/
  waiting : Bool
  /-- The signals the host has sent and the gate has not taken, oldest first. A gate takes one: what is left over answers a
  later gate. DESIGN CHOICE, log entry 9. -/
  signals : List Signal
  /-- The BreakStates published so far, newest first (R355–R357). -/
  published : List BreakState
  /-- The host has called `stop` while no gate waited: it takes effect after the running step, or at the next gate that
  breaks (R359). Log entry 10. -/
  stopRequested : Bool
  deriving DecidableEq, Repr

structure State where
  /-- The accumulator (R21). -/
  a : Byte
  /-- Index register X (R22). -/
  x : Byte
  /-- Index register Y (R23). -/
  y : Byte
  /-- The stack pointer (R24). -/
  sp : Byte
  /-- The program counter (R25). -/
  pc : Word
  /-- The status flags (R26). -/
  flags : Flags
  /-- The NMI edge latch (R36). -/
  nmiLatch : Bool
  /-- IRQ_LINE: the level of the IRQ input, the host's to drive (R333). Log entry 8. -/
  irqLine : Bool
  /-- The parity of `cycles` (R37). -/
  odd : Bool
  /-- The CPU cycles of all completed steps (R37). -/
  cycles : Nat
  /-- The cycle count of the step being executed, and after it what `step()` returned (R160, R166). Log entry 12. -/
  stepCycles : Nat
  /-- Running, Faulted or Stopped (R38). -/
  status : RunStatus
  /-- CPU RAM, 2048 bytes (R63). -/
  ram : Memory
  ppu : Ppu
  pad : Pad
  cart : Cart
  mmc1 : Mmc1
  /-- The 8 KiB at $6000: NROM SRAM (R93) or MMC1 PRG-RAM (R104). Log entry 14. -/
  cartRam : Memory
  /-- CHR-RAM, 8192 bytes, in use when the cartridge has no CHR page (R92, R103). Log entry 14. -/
  chrRam : Memory
  gate : Gate
  /-- How many free inputs have been drawn: the index of the next one (log entry 6). -/
  draws : Nat
  deriving DecidableEq, Repr

/-- How a step ends that does not complete (R320, R323): the fault, and the state it leaves. Every access before the faulting
one has taken effect there and none after it, and `status` is Faulted. Raised by the bus, the fetch and the operands, and
given its final state by `raiseFault`. Safe: the spec's run ends there too, and no claim depends on that state (R170, D15).
Log entry 11. -/
inductive Fault where
  /-- The step raised `kind` and left the machine in `left`; raised where `kind` says. Safe. -/
  | raised (kind : FaultKind) (left : State)
  deriving DecidableEq, Repr

namespace State

/-! One update per field that the operations write. -/

def setA (s : State) (v : Byte) : State := { s with a := v }
def setX (s : State) (v : Byte) : State := { s with x := v }
def setY (s : State) (v : Byte) : State := { s with y := v }
def setSp (s : State) (v : Byte) : State := { s with sp := v }
def setPc (s : State) (v : Word) : State := { s with pc := v }
def setFlags (s : State) (v : Flags) : State := { s with flags := v }
def setNmiLatch (s : State) (v : Bool) : State := { s with nmiLatch := v }
def setStepCycles (s : State) (v : Nat) : State := { s with stepCycles := v }
def setStatus (s : State) (v : RunStatus) : State := { s with status := v }
def setRam (s : State) (v : Memory) : State := { s with ram := v }
def setPpu (s : State) (v : Ppu) : State := { s with ppu := v }
def setPad (s : State) (v : Pad) : State := { s with pad := v }
def setMmc1 (s : State) (v : Mmc1) : State := { s with mmc1 := v }
def setCartRam (s : State) (v : Memory) : State := { s with cartRam := v }
def setChrRam (s : State) (v : Memory) : State := { s with chrRam := v }
def setGate (s : State) (v : Gate) : State := { s with gate := v }
def setDraws (s : State) (v : Nat) : State := { s with draws := v }

end State

/-- The PPU after load: every register and latch 0 (R373), the memories MEM_INIT (R372), the position PPU_START (R373). -/
def Ppu.reset (oam ciram pal : Memory) (scanline dot : Nat) : Ppu :=
  { ctrl := 0, mask := 0, vblank := false, spriteZero := false, spriteOverflow := false, oamaddr := 0, w := false,
    scrollX := 0, scrollY := 0, tHi := 0, v := 0, buf := 0, oam := oam, ciram := ciram, pal := pal,
    scanline := scanline, dot := dot }

/-- MMC1 after load (R374, D29). -/
def Mmc1.reset : Mmc1 :=
  { shift := 0, count := 0, control := 0x0C, chr0 := 0, chr1 := 0, prg := 0, booted := false }

/-- The cartridge of `State.reset`: NROM, 32 KiB of PRG-ROM, CHR-RAM and vertical mirroring, the conventions of
95_test_vectors.md, with every ROM byte 0: no program stands in it. DESIGN CHOICE, log entry 3. -/
def Cart.blank : Cart :=
  { mapper := .nrom, prgPages := 2, prg := [], chrPages := 0, chr := [], mirroring := .vertical, nromSram := false }

/-- The gate after load (R375), for a MODE and a set BREAKS. -/
def Gate.reset (mode : RunMode) (breaks : List Word) : Gate :=
  { mode := mode, breaks := breaks, first := true, stepping := false, waiting := false, signals := [], published := [],
    stopRequested := false }

/-- Every flag 0. -/
def Flags.zero : Flags := { n := false, v := false, b := false, d := false, i := false, z := false, c := false }

/-- The machine right after reset, which is `load` (R370, R376) with the values the log names for the parameters the spec
leaves open: RESET_REGS (entry 1), MEM_INIT (entry 2), CART (entry 3), PPU_START (entry 4), MODE and BREAKS (entry 9).
PC is the word at $FFFC of the blank cartridge. `load_default` in Laws says that this is that load. -/
def State.reset : State :=
  { a := 0, x := 0, y := 0, sp := 0, pc := 0, flags := Flags.zero, nmiLatch := false, irqLine := false, odd := false,
    cycles := 0, stepCycles := 0, status := .running, ram := [], ppu := Ppu.reset [] [] [] 0 0,
    pad := { ptr := 0, strobe := false, buttons := none }, cart := Cart.blank, mmc1 := Mmc1.reset, cartRam := [],
    chrRam := [], gate := Gate.reset .run [], draws := 0 }

end Sys2Proof.Machine
end

