-- ==== Sys2Proof/Machine/Flags.lean ====
section
/-! DEFINITION. The status byte P (10_state.md R26, R27) and every flag computation of the instructions (00_scope.md R9,
42_arithmetic_logic.md R231–R249): arithmetic is exact on naturals and narrowed at the end. -/

namespace Sys2Proof.Machine

/-- `bool(e)` of R8 as a number. -/
def bit (b : Bool) : Nat := if b then 1 else 0

/-- `get_p()` = `{N, V, 1, B, D, I, Z, C}` (R26, R27). -/
def getP (f : Flags) : Byte :=
  BitVec.ofNat 8 (128 * bit f.n + 64 * bit f.v + 32 + 16 * bit f.b + 8 * bit f.d + 4 * bit f.i + 2 * bit f.z + bit f.c)

/-- `set_p(p)`: seven flags from the byte, bit 5 ignored (R27). -/
def setP (p : Byte) : Flags :=
  { n := p.getLsbD 7, v := p.getLsbD 6, b := p.getLsbD 4, d := p.getLsbD 3, i := p.getLsbD 2, z := p.getLsbD 1,
    c := p.getLsbD 0 }

/-- `SetNZ(v)` (R9). -/
def setNZ (v : Byte) (f : Flags) : Flags := { f with n := v.getLsbD 7, z := v == 0 }

/-- The sum `A + M + C` of R231, before it is narrowed. -/
def adcSum (a m : Byte) (c : Bool) : Nat := a.toNat + m.toNat + bit c

/-- V of a sum r of A and M (R231): `((A ^ r) & (M ^ r) & $80) != 0`. -/
def overflow (a m r : Byte) : Bool := ((a ^^^ r) &&& (m ^^^ r) &&& 0x80) != 0

/-- ADC's result and flags (R231). D is not read. -/
def adc (a m : Byte) (f : Flags) : Byte × Flags :=
  let sum := adcSum a m f.c
  let r := BitVec.ofNat 8 sum
  (r, setNZ r { f with c := decide (0xFF < sum), v := overflow a m r })

/-- SBC's result and flags (R232): the one's-complement add, V by `((A ^ M) & (A ^ r) & $80) != 0`. D is not read. -/
def sbc (a m : Byte) (f : Flags) : Byte × Flags :=
  let sum := adcSum a (m ^^^ 0xFF) f.c
  let r := BitVec.ofNat 8 sum
  (r, setNZ r { f with c := decide (0xFF < sum), v := ((a ^^^ m) &&& (a ^^^ r) &&& 0x80) != 0 })

/-- The flags of a compare of a register with M (R237): C is `reg >= M` unsigned, N and Z of `(reg - M) mod 256`. -/
def compareFlags (reg m : Byte) (f : Flags) : Flags :=
  setNZ (reg - m) { f with c := decide (m.toNat ≤ reg.toNat) }

/-- BIT's flags (R236). -/
def bitFlags (a m : Byte) (f : Flags) : Flags :=
  { f with z := (a &&& m) == 0, n := m.getLsbD 7, v := m.getLsbD 6 }

/-- ASL (R246): the result, and the bit shifted out as C. -/
def asl (m : Byte) (f : Flags) : Byte × Flags := (m <<< 1, { f with c := m.getLsbD 7 })

/-- LSR (R247). -/
def lsr (m : Byte) (f : Flags) : Byte × Flags := (m >>> 1, { f with c := m.getLsbD 0 })

/-- ROL (R248): the old C comes in at bit 0. -/
def rol (m : Byte) (f : Flags) : Byte × Flags := ((m <<< 1) ||| (if f.c then 1 else 0), { f with c := m.getLsbD 7 })

/-- ROR (R249): the old C comes in at bit 7. -/
def ror (m : Byte) (f : Flags) : Byte × Flags := ((m >>> 1) ||| (if f.c then 0x80 else 0), { f with c := m.getLsbD 0 })

/-- INC (R240): no flag but N and Z. -/
def inc (m : Byte) (f : Flags) : Byte × Flags := (m + 1, f)

/-- DEC (R241): no flag but N and Z. -/
def dec (m : Byte) (f : Flags) : Byte × Flags := (m - 1, f)

end Sys2Proof.Machine
end

