-- ==== Sys2Proof/Machine/Ops.lean ====
section
/-! DEFINITION. The named operations over memory and registers: storage arrays, the mappers (20_memory.md R90–R105), the
PPU ports and address space (R66–R82), the controller (R86), OAM-DMA (40_step.md R175, R176), the bus primitives (R60–R62),
the stack (10_state.md R28), and taking and leaving an exception (60_exceptions.md R336, 43_control_transfer.md R274). -/

namespace Sys2Proof

/-- The byte at address `a` of a storage array. -/
def Memory.read : Memory → Nat → Byte
  | [], _ => Memory.unlisted
  | (k, d) :: rest, a => if k = a then d else Memory.read rest a

/-- The storage array with no cell for address `a`: it reads as unlisted. -/
def Memory.erase (m : Memory) (a : Nat) : Memory := m.filter fun c => c.1 != a

/-- The cell `(a, d)` put in at its place in the rising order. -/
def Memory.insert : Memory → Nat → Byte → Memory
  | [], a, d => [(a, d)]
  | (k, e) :: rest, a, d => if a < k then (a, d) :: (k, e) :: rest else (k, e) :: Memory.insert rest a d

/-- The storage array with byte `d` at address `a`, in canonical form: a cell that would hold what an unlisted address
reads as is left out. -/
def Memory.write (m : Memory) (a : Nat) (d : Byte) : Memory :=
  if d = Memory.unlisted then m.erase a else (m.erase a).insert a d

namespace Machine

/-- What an operation of a step answers: a value, or the fault that ends the run with the state at the faulting access (R9
`raise`, R320, R323). -/
abbrev Result (α : Type) := Except Fault α

/-! Cartridge -/

/-- Where a nametable page comes from (R81, R99). -/
inductive Mirroring where
  | horizontal
  | vertical
  | singleLower
  | singleUpper
  deriving DecidableEq, Repr

/-- `mirroring()` of the active mapper (R90, R94, R99). -/
def mirroring (s : State) : Mirroring :=
  match s.cart.mapper with
  | .nrom =>
    match s.cart.mirroring with
    | .horizontal => .horizontal
    | .vertical => .vertical
  | .mmc1 =>
    match s.mmc1.control.toNat % 4 with
    | 0 => .singleLower
    | 1 => .singleUpper
    | 2 => .vertical
    | _ => .horizontal

/-- MMC1: the 16-KiB PRG page at CPU address `a` ≥ $8000, of `pages` pages (R100, R101, R102). -/
def mmc1PrgPage (m : Mmc1) (pages a : Nat) : Nat :=
  let switchable := (m.prg &&& 0x0F).toNat % pages
  if !m.booted then (if a < 0xC000 then switchable else pages - 1)
  else if !m.control.getLsbD 2 then ((m.prg &&& 0x0E).toNat + (a - 0x8000) / 16384) % pages
  else if m.control.getLsbD 3 then (if a < 0xC000 then switchable else pages - 1)
  else (if a < 0xC000 then 0 else switchable)

/-- The 16-KiB PRG page at CPU address `a` ≥ $8000 (R91, R100–R102). -/
def prgPage (s : State) (a : Nat) : Nat :=
  match s.cart.mapper with
  | .nrom => (a - 0x8000) / 16384 % s.cart.prgPages
  | .mmc1 => mmc1PrgPage s.mmc1 s.cart.prgPages a

/-- Where in `cart.prg` the byte at CPU address `a` ≥ $8000 stands. -/
def prgOffset (s : State) (a : Nat) : Nat := 16384 * prgPage s a + a % 16384

/-- Whether there is RAM at $6000–$7FFF (R93, R104). -/
def hasCartRam (c : Cart) : Bool :=
  match c.mapper with
  | .nrom => c.nromSram
  | .mmc1 => true

/-- `mapper.read(a)` for a in $4020–$FFFF (R90, R91, R93, R94, R104). -/
def cartRead (addr : Word) (s : State) : Result Byte :=
  let a := addr.toNat
  if 0x8000 ≤ a then .ok (s.cart.prg.read (prgOffset s a))
  else if 0x6000 ≤ a ∧ hasCartRam s.cart then .ok (s.cartRam.read (a - 0x6000))
  else .error (.raised (.unmappedAddress addr) s)

/-- The commit of five bits into the register that bits 14..13 of the address select (R98). -/
def mmc1Commit (a : Nat) (val : Five) (m : Mmc1) : Mmc1 :=
  match a / 8192 % 4 with
  | 0 => { m with control := val, booted := true }
  | 1 => { m with chr0 := val }
  | 2 => { m with chr1 := val }
  | _ => { m with prg := val }

/-- A write of `d` to the serial port at `a` (R96, R97). -/
def mmc1Write (a : Nat) (d : Byte) (m : Mmc1) : Mmc1 :=
  if d.getLsbD 7 then { m with shift := 0, count := 0, control := m.control ||| 0x0C }
  else
    let shift := m.shift ||| ((if d.getLsbD 0 then (1 : Five) else 0) <<< m.count)
    if m.count + 1 = 5 then mmc1Commit a shift { m with shift := 0, count := 0 }
    else { m with shift := shift, count := m.count + 1 }

/-- `mapper.write(a, d)` for a in $4020–$FFFF (R90, R93, R94, R104). -/
def cartWrite (addr : Word) (d : Byte) (s : State) : Result State :=
  let a := addr.toNat
  if 0x8000 ≤ a then
    match s.cart.mapper with
    | .nrom => .error (.raised (.unmappedAddress addr) s)
    | .mmc1 => .ok (s.setMmc1 (mmc1Write a d s.mmc1))
  else if 0x6000 ≤ a ∧ hasCartRam s.cart then .ok (s.setCartRam (s.cartRam.write (a - 0x6000) d))
  else .error (.raised (.unmappedAddress addr) s)

/-- Where in the CHR storage the byte at PPU address `a` < $2000 stands (R92, R103). -/
def chrOffset (s : State) (a : Nat) : Nat :=
  match s.cart.mapper with
  | .nrom => a
  | .mmc1 =>
    let banks := if s.cart.chrPages = 0 then 2 else 2 * s.cart.chrPages
    let bank :=
      if !s.mmc1.control.getLsbD 4 then ((s.mmc1.chr0 &&& 0x1E).toNat + a / 4096) % banks
      else (if a < 0x1000 then s.mmc1.chr0.toNat else s.mmc1.chr1.toNat) % banks
    4096 * bank + a % 4096

/-- `chr_read(a)` (R92, R103). -/
def chrRead (s : State) (a : Nat) : Byte :=
  if s.cart.chrPages = 0 then s.chrRam.read (chrOffset s a) else s.cart.chr.read (chrOffset s a)

/-- `chr_write(a, d)` (R92, R103): CHR-ROM faults, with the PPU address (R321). -/
def chrWrite (a : Nat) (d : Byte) (s : State) : Result State :=
  if s.cart.chrPages = 0 then .ok (s.setChrRam (s.chrRam.write (chrOffset s a) d))
  else .error (.raised (.unmappedAddress (BitVec.ofNat 16 a)) s)

/-! PPU address space -/

/-- The physical 1-KiB page of a logical nametable (R81). -/
def nametablePage (m : Mirroring) (table : Nat) : Nat :=
  match m with
  | .horizontal => table / 2
  | .vertical => table % 2
  | .singleLower => 0
  | .singleUpper => 1

/-- The CIRAM index of a PPU address in $2000–$3EFF (R81). -/
def ciramIndex (m : Mirroring) (a : Nat) : Nat :=
  let n := (a - 0x2000) % 0x1000
  nametablePage m (n / 1024) * 1024 + n % 1024

/-- The palette index of a PPU address in $3F00–$3FFF (R82). -/
def palIndex (a : Nat) : Nat :=
  let p := a % 32
  if p = 0x10 ∨ p = 0x14 ∨ p = 0x18 ∨ p = 0x1C then p - 0x10 else p

/-- `PpuRead(a)` (R80). -/
def ppuRead (s : State) (addr : Nat) : Byte :=
  let a := addr % 0x4000
  if a < 0x2000 then chrRead s a
  else if a < 0x3F00 then s.ppu.ciram.read (ciramIndex (mirroring s) a)
  else s.ppu.pal.read (palIndex a)

/-- `PpuWrite(a, d)` (R80). -/
def ppuWrite (addr : Nat) (d : Byte) (s : State) : Result State :=
  let a := addr % 0x4000
  if a < 0x2000 then chrWrite a d s
  else if a < 0x3F00 then
    .ok (s.setPpu { s.ppu with ciram := s.ppu.ciram.write (ciramIndex (mirroring s) a) d })
  else .ok (s.setPpu { s.ppu with pal := s.ppu.pal.write (palIndex a) d })

/-! PPU ports -/

/-- The address of a port, whatever mirror of it was accessed (R64, R321). -/
def portAddress (p : Nat) : Word := BitVec.ofNat 16 (0x2000 + p)

/-- The VRAM address increment (R78). -/
def vramIncrement (p : Ppu) : Word := if p.ctrl.getLsbD 2 then 32 else 1

/-- A read of PPUSTATUS (R71): bit 7 is the vblank flag, bits 6..0 are the next free input DRAW. -/
def readPpuStatus (s : State) : Byte × State :=
  let free := Config.draw s.draws
  ((if s.ppu.vblank then 0x80 else 0) ||| free.setWidth 8,
    (s.setPpu { s.ppu with vblank := false, w := false }).setDraws (s.draws + 1))

/-- A read of PPUDATA (R75). -/
def readPpuData (s : State) : Byte × State :=
  let a := s.ppu.v.toNat % 0x4000
  let v := s.ppu.v + vramIncrement s.ppu
  if 0x3F00 ≤ a then (ppuRead s a, s.setPpu { s.ppu with buf := ppuRead s (a - 0x1000), v := v })
  else (s.ppu.buf, s.setPpu { s.ppu with buf := ppuRead s a, v := v })

/-- `PpuPortRead($2000 + p)` (R77): ports 0, 1, 3, 5 and 6 are write-only. -/
def portRead (p : Nat) (s : State) : Result (Byte × State) :=
  match p with
  | 2 => .ok (readPpuStatus s)
  | 4 => .ok (s.ppu.oam.read s.ppu.oamaddr.toNat, s)
  | 7 => .ok (readPpuData s)
  | _ => .error (.raised (.invalidMmioRead (portAddress p)) s)

/-- A write of PPUCTRL (R67): enabling the NMI while status[7] is set is an NMI edge. -/
def writePpuCtrl (d : Byte) (s : State) : State :=
  (s.setNmiLatch (s.nmiLatch || (!s.ppu.ctrl.getLsbD 7 && d.getLsbD 7 && s.ppu.vblank))).setPpu { s.ppu with ctrl := d }

/-- A write of OAMDATA (R70). -/
def writeOamData (d : Byte) (s : State) : State :=
  s.setPpu { s.ppu with oam := s.ppu.oam.write s.ppu.oamaddr.toNat d, oamaddr := s.ppu.oamaddr + 1 }

/-- A write of PPUSCROLL (R73). -/
def writePpuScroll (d : Byte) (s : State) : State :=
  if !s.ppu.w then s.setPpu { s.ppu with scrollX := d, w := true }
  else s.setPpu { s.ppu with scrollY := d, w := false }

/-- A write of PPUADDR (R74). -/
def writePpuAddr (d : Byte) (s : State) : State :=
  if !s.ppu.w then s.setPpu { s.ppu with tHi := d, w := true }
  else s.setPpu { s.ppu with v := mkWord d s.ppu.tHi, w := false }

/-- A write of PPUDATA (R76). -/
def writePpuData (d : Byte) (s : State) : Result State := do
  let s ← ppuWrite (s.ppu.v.toNat % 0x4000) d s
  .ok (s.setPpu { s.ppu with v := s.ppu.v + vramIncrement s.ppu })

/-- `PpuPortWrite($2000 + p, d)` (R77). -/
def portWrite (p : Nat) (d : Byte) (s : State) : Result State :=
  match p with
  | 0 => .ok (writePpuCtrl d s)
  | 1 => .ok (s.setPpu { s.ppu with mask := d })
  | 2 => .error (.raised (.invalidMmioWrite (portAddress 2)) s)
  | 3 => .ok (s.setPpu { s.ppu with oamaddr := d })
  | 4 => .ok (writeOamData d s)
  | 5 => .ok (writePpuScroll d s)
  | 6 => .ok (writePpuAddr d s)
  | _ => writePpuData d s

/-! Controller #1 -/

/-- The button states a read sees (R86): what the host holds, or the next free input. -/
def buttonStates (s : State) : Byte × State :=
  match s.pad.buttons with
  | some b => (b, s)
  | none => (Config.buttons s.draws, s.setDraws (s.draws + 1))

/-- `ControllerRead()` (R86). -/
def controllerRead (s : State) : Byte × State :=
  if s.pad.ptr < 8 then
    let (b, s') := buttonStates s
    (if b.getLsbD s.pad.ptr then 1 else 0, s'.setPad { s.pad with ptr := s.pad.ptr + 1 })
  else (1, s)

/-- `ControllerWrite(d)` (R86). -/
def controllerWrite (d : Byte) (s : State) : State :=
  s.setPad { s.pad with strobe := d.getLsbD 0, ptr := if d.getLsbD 0 then s.pad.ptr else 0 }

/-! The bus -/

/-- `MemRead(addr)` (R60), with its side effects (R53). -/
def memRead (addr : Word) (s : State) : Result (Byte × State) :=
  let a := addr.toNat
  if a ≤ 0x1FFF then .ok (s.ram.read (a % 2048), s)
  else if a ≤ 0x3FFF then portRead (a % 8) s
  else if a = 0x4014 then .error (.raised (.invalidMmioRead addr) s)
  else if a = 0x4016 then .ok (controllerRead s)
  else if a ≤ 0x4017 then .ok (0, s)
  else if a ≤ 0x401F then .error (.raised (.unmappedAddress addr) s)
  else do .ok (← cartRead addr s, s)

/-- `MemObserve(addr)` (R62): the value a read would return, without its side effects, and 0 where a read would fault. -/
def memObserve (addr : Word) (s : State) : Byte :=
  match memRead addr s with
  | .ok (d, _) => d
  | .error _ => 0

/-- The last `n` bytes of the OAM-DMA copy from page `d`, in increasing order (R175). -/
def oamDmaCopy (d : Byte) : Nat → State → Result State
  | 0, s => .ok s
  | n + 1, s => do
    let i := 255 - n
    let (b, s) ← memRead (mkWord (BitVec.ofNat 8 i) d) s
    oamDmaCopy d n (s.setPpu { s.ppu with oam := s.ppu.oam.write i b })

/-- `OamDma(d)`: the 256 bytes (R175) and the stall cycles (R176). -/
def oamDma (d : Byte) (s : State) : Result (Nat × State) := do
  let s' ← oamDmaCopy d 256 s
  .ok (if s.odd then 514 else 513, s')

/-- `MemWrite(addr, d)` (R61): the extra CPU cycles it consumed, and the state. -/
def memWrite (addr : Word) (d : Byte) (s : State) : Result (Nat × State) :=
  let a := addr.toNat
  if a ≤ 0x1FFF then .ok (0, s.setRam (s.ram.write (a % 2048) d))
  else if a ≤ 0x3FFF then do .ok (0, ← portWrite (a % 8) d s)
  else if a = 0x4014 then oamDma d s
  else if a = 0x4016 then .ok (0, controllerWrite d s)
  else if a ≤ 0x4017 then .ok (0, s)
  else if a ≤ 0x401F then .error (.raised (.unmappedAddress addr) s)
  else do .ok (0, ← cartWrite addr d s)

/-- `extra <- extra + k` (R9, R166). -/
def addCycles (k : Nat) (s : State) : State := s.setStepCycles (s.stepCycles + k)

/-! Faults -/

/-- The end of a run (R320, R357): `status` becomes Faulted, and in debug mode the host gets one BreakState with `err` set. -/
def enterFaulted (kind : FaultKind) (s : State) : State :=
  (s.setStatus (.faulted kind)).setGate { s.gate with
    published := if s.gate.mode = .debug then ⟨s.pc, some kind⟩ :: s.gate.published else s.gate.published }

/-- `raise Fault(kind, info)` (R320): the step ends at the faulting access, in the state that access found. -/
def raiseFault : Fault → Host.Outcome State Fault Refusal
  | .raised kind s => .fault (.raised kind (enterFaulted kind s))

/-- The outcome of a step's part that may fault. -/
def toOutcome : Result State → Host.Outcome State Fault Refusal
  | .ok s => .next s
  | .error f => raiseFault f

/-! The stack -/

/-- `$0100 | SP` (R24). -/
def stackAddress (sp : Byte) : Word := 0x0100 ||| sp.setWidth 16

/-- `Push(v8)` (R28). -/
def push (v : Byte) (s : State) : Result State := do
  let (_, s) ← memWrite (stackAddress s.sp) v s
  .ok (s.setSp (s.sp - 1))

/-- `Pull()` (R28). -/
def pull (s : State) : Result (Byte × State) :=
  let s := s.setSp (s.sp + 1)
  memRead (stackAddress s.sp) s

/-- `Push16(v16)`: the high byte first (R28). -/
def push16 (v : Word) (s : State) : Result State := do
  let s ← push (highByte v) s
  push (lowByte v) s

/-- `Pull16()`: the low byte first (R28). -/
def pull16 (s : State) : Result (Word × State) := do
  let (lo, s) ← pull s
  let (hi, s) ← pull s
  .ok (mkWord lo hi, s)

/-! Exceptions -/

/-- The two reads of a vector and the jump through it, low byte first (R50, R56). -/
def jumpThrough (vec : Word) (s : State) : Result State := do
  let (lo, s) ← memRead vec s
  let (hi, s) ← memRead (vec + 1) s
  .ok (s.setPc (mkWord lo hi))

/-- Taking an exception, shared by NMI, IRQ and BRK (R275, R336, R337): the return address and the status byte go to the
stack, I becomes 1, PC comes from the vector. -/
def takeException (returnPc : Word) (status : Byte) (vec : Word) (s : State) : Result State := do
  let s ← push16 returnPc s
  let s ← push status s
  jumpThrough vec (s.setFlags { s.flags with i := true })

/-- `InterruptEntry(vec)` (R336): B is pushed as 0, bit 5 as 1, and the step takes 7 cycles. -/
def interruptEntry (vec : Word) (s : State) : Result State :=
  takeException s.pc ((getP s.flags &&& 0xEF) ||| 0x20) vec (s.setStepCycles 7)

/-- Returning from an exception (R274, R338): the status byte, then PC, without adding 1. -/
def returnFromException (s : State) : Result State := do
  let (p, s) ← pull s
  let (pc, s) ← pull16 (s.setFlags (setP p))
  .ok (s.setPc pc)

/-- The NMI vector (R56). -/
def nmiVector : Word := 0xFFFA
/-- The reset vector (R56). -/
def resetVector : Word := 0xFFFC
/-- The IRQ and BRK vector (R56). -/
def irqVector : Word := 0xFFFE

end Machine

end Sys2Proof
end

