-- ==== Sys2Proof/Machine/Operands.lean ====
section
/-! DEFINITION. The thirteen addressing modes (30_encoding.md R130–R142), the operand they build (40_step.md R163), and the
frame of an instruction: PC advance, cycles, mode, operation (40_step.md R162–R166). -/

namespace Sys2Proof.Machine

/-- The registers an operand can be (R163). -/
inductive Reg where
  | a
  | x
  | y
  deriving DecidableEq, Repr

/-- The operand of R163. -/
inductive Operand where
  /-- A RAM location, by its address in the CPU map. -/
  | ram (ea : Word)
  | reg (r : Reg)
  | const (k : Byte)
  | nil
  deriving DecidableEq, Repr

/-- What an addressing mode answers: the operand, and whether a page was crossed (R162). -/
structure Addressed where
  opnd : Operand
  cross : Bool
  deriving DecidableEq, Repr

/-- Bits 15..8 of two addresses differ (R11, R143). -/
def pageCross (base ea : Word) : Bool := highByte base != highByte ea

/-- Sign extension of a branch offset (R8). -/
def sext16 (b : Byte) : Word := b.signExtend 16

/-- Zero extension of a zero-page address (R8). -/
def zext16 (b : Byte) : Word := b.setWidth 16

/-- The second byte of a pointer is read in the same page as its first (R140). -/
def samePageNext (ptr : Word) : Word := mkWord (lowByte ptr + 1) (highByte ptr)

/-- An addressing mode, after PC has been advanced past the instruction. -/
abbrev Mode := State → Result (Addressed × State)

/-- Implied (R130). -/
def modeImp : Mode := fun s => .ok (⟨.nil, false⟩, s)
/-- Accumulator (R131). -/
def modeAcc : Mode := fun s => .ok (⟨.reg .a, false⟩, s)
/-- Immediate (R132). -/
def modeImm (v : Byte) : Mode := fun s => .ok (⟨.const v, false⟩, s)
/-- ZeroPage (R133). -/
def modeZp (zp : Byte) : Mode := fun s => .ok (⟨.ram (zext16 zp), false⟩, s)
/-- ZeroPageX (R134): the sum wraps within page zero. -/
def modeZpX (zp : Byte) : Mode := fun s => .ok (⟨.ram (zext16 (zp + s.x)), false⟩, s)
/-- ZeroPageY (R135). -/
def modeZpY (zp : Byte) : Mode := fun s => .ok (⟨.ram (zext16 (zp + s.y)), false⟩, s)
/-- Relative (R136): the target counts from the address of the next instruction, which PC holds by now. -/
def modeRel (off : Byte) : Mode := fun s =>
  let target := s.pc + sext16 off
  .ok (⟨.ram target, pageCross s.pc target⟩, s)
/-- Absolute (R137). -/
def modeAbs (addr : Word) : Mode := fun s => .ok (⟨.ram addr, false⟩, s)
/-- AbsoluteX (R138). -/
def modeAbsX (addr : Word) : Mode := fun s =>
  let ea := addr + zext16 s.x
  .ok (⟨.ram ea, pageCross addr ea⟩, s)
/-- AbsoluteY (R139). -/
def modeAbsY (addr : Word) : Mode := fun s =>
  let ea := addr + zext16 s.y
  .ok (⟨.ram ea, pageCross addr ea⟩, s)
/-- Indirect (R140): the high byte of the pointer comes from the same page. -/
def modeInd (addr : Word) : Mode := fun s => do
  let (lo, s) ← memRead addr s
  let (hi, s) ← memRead (samePageNext addr) s
  .ok (⟨.ram (mkWord lo hi), false⟩, s)
/-- IndirectX (R141): both pointer bytes come from page zero. -/
def modeIndX (zp : Byte) : Mode := fun s => do
  let ptr := zp + s.x
  let (lo, s) ← memRead (zext16 ptr) s
  let (hi, s) ← memRead (zext16 (ptr + 1)) s
  .ok (⟨.ram (mkWord lo hi), false⟩, s)
/-- IndirectY (R142): both pointer bytes come from page zero, Y is added to what they hold. -/
def modeIndY (zp : Byte) : Mode := fun s => do
  let (lo, s) ← memRead (zext16 zp) s
  let (hi, s) ← memRead (zext16 (zp + 1)) s
  let base := mkWord lo hi
  let ea := base + zext16 s.y
  .ok (⟨.ram ea, pageCross base ea⟩, s)

/-- The value of a register operand. -/
def readReg (r : Reg) (s : State) : Byte :=
  match r with
  | .a => s.a
  | .x => s.x
  | .y => s.y

/-- A register operand written. -/
def writeReg (r : Reg) (v : Byte) (s : State) : State :=
  match r with
  | .a => s.setA v
  | .x => s.setX v
  | .y => s.setY v

/-- `opnd.read()` (R163). -/
def readOperand (pc0 : Word) (o : Operand) (s : State) : Result (Byte × State) :=
  match o with
  | .ram ea => memRead ea s
  | .reg r => .ok (readReg r s, s)
  | .const k => .ok (k, s)
  | .nil => .error (.raised (.operandMisuse pc0) s)

/-- `opnd.write(v)` (R163): a store adds the cycles it consumed to the step's. -/
def writeOperand (pc0 : Word) (o : Operand) (v : Byte) (s : State) : Result State :=
  match o with
  | .ram ea => do
    let (k, s) ← memWrite ea v s
    .ok (addCycles k s)
  | .reg r => .ok (writeReg r v s)
  | .const _ => .error (.raised (.operandMisuse pc0) s)
  | .nil => .error (.raised (.operandMisuse pc0) s)

/-- The operation of a mnemonic (R164): it is given pc0 and what the mode built. -/
abbrev Operation := Word → Addressed → State → Result State

/-- Executes one instruction from the state whose PC is pc0 and whose instruction bytes have been fetched (R162–R166): PC
moves past its `operands` operand bytes, the mode builds the operand, the cycles are the base count and 1 more where a
marked opcode crosses a page (R143), and the operation runs. -/
def runInstr (base : Nat) (marked : Bool) (operands : Nat) (mode : Mode) (op : Operation) (s : State) :
    Host.Outcome State Fault Refusal :=
  toOutcome do
    let (m, s') ← mode ((s.setPc (s.pc + 1 + BitVec.ofNat 16 operands)).setStepCycles base)
    op s.pc m (if marked && m.cross then addCycles 1 s' else s')

end Sys2Proof.Machine
end

