-- ==== Sys2Proof/Machine/Arith.lean ====
section
/-! DEFINITION. Arithmetic, logic, compare, increment and shift instructions (42_arithmetic_logic.md R230–R249): the operation of
each mnemonic, then one meaning per row of the opcode table (30_encoding.md R124), with the row's base cycles, its page-cross
mark and its number of operand bytes. -/

namespace Sys2Proof.Machine

/-- ADC and SBC share this (R231, R232): A and the flags come from A, M and the flags. -/
def accumulate (f : Byte → Byte → Flags → Byte × Flags) : Operation := fun pc0 m s => do
  let (v, s) ← readOperand pc0 m.opnd s
  let (r, flags) := f s.a v s.flags
  .ok ((s.setA r).setFlags flags)

/-- AND, ORA and EOR share this (R233–R235): N and Z follow the result. -/
def logic (f : Byte → Byte → Byte) : Operation := accumulate fun a m flags => (f a m, setNZ (f a m) flags)

/-- The instructions that read M for their flags alone (BIT and the compares, R236–R239). -/
def testOperand (f : Byte → State → Flags) : Operation := fun pc0 m s => do
  let (v, s) ← readOperand pc0 m.opnd s
  .ok (s.setFlags (f v s))

/-- The check before a read-modify-write reads (R105): an EA in $8000–$FFFF under MMC1 faults. -/
def checkRmw (o : Operand) (s : State) : Result Unit :=
  match o with
  | .ram ea => if s.cart.mapper = .mmc1 ∧ 0x8000 ≤ ea.toNat then .error (.raised (.unmodelledMmc1Rmw ea) s) else .ok ()
  | _ => .ok ()

/-- A read-modify-write (R165, R230): the check, one read, C where the operation writes it, one write of r, then N and Z. C is
written before the write of r (R246–R249), so it stands in the state a fault of that write leaves (R323). -/
def readModifyWrite (f : Byte → Flags → Byte × Flags) : Operation := fun pc0 m s => do
  checkRmw m.opnd s
  let (v, s) ← readOperand pc0 m.opnd s
  let (r, flags) := f v s.flags
  let s ← writeOperand pc0 m.opnd r (s.setFlags flags)
  .ok (s.setFlags (setNZ r s.flags))

/-- INX, INY, DEX and DEY share this (R242–R245). -/
def stepRegister (r : Reg) (by_ : Byte) : Operation := fun _ _ s =>
  let v := readReg r s + by_
  .ok ((writeReg r v s).setFlags (setNZ v s.flags))

/-- ADC (R231). -/
def opAdc : Operation := accumulate adc
/-- SBC (R232). -/
def opSbc : Operation := accumulate sbc
/-- AND (R233). -/
def opAnd : Operation := logic (· &&& ·)
/-- ORA (R234). -/
def opOra : Operation := logic (· ||| ·)
/-- EOR (R235). -/
def opEor : Operation := logic (· ^^^ ·)
/-- BIT (R236). -/
def opBit : Operation := testOperand fun m s => bitFlags s.a m s.flags
/-- CMP (R237). -/
def opCmp : Operation := testOperand fun m s => compareFlags s.a m s.flags
/-- CPX (R238). -/
def opCpx : Operation := testOperand fun m s => compareFlags s.x m s.flags
/-- CPY (R239). -/
def opCpy : Operation := testOperand fun m s => compareFlags s.y m s.flags
/-- INC (R240). -/
def opInc : Operation := readModifyWrite inc
/-- DEC (R241). -/
def opDec : Operation := readModifyWrite dec
/-- INX (R242). -/
def opInx : Operation := stepRegister .x 1
/-- INY (R243). -/
def opIny : Operation := stepRegister .y 1
/-- DEX (R244): adding 255 is subtracting 1 modulo 256. -/
def opDex : Operation := stepRegister .x (-1)
/-- DEY (R245). -/
def opDey : Operation := stepRegister .y (-1)
/-- ASL (R246). -/
def opAsl : Operation := readModifyWrite asl
/-- LSR (R247). -/
def opLsr : Operation := readModifyWrite lsr
/-- ROL (R248). -/
def opRol : Operation := readModifyWrite rol
/-- ROR (R249). -/
def opRor : Operation := readModifyWrite ror

/-- `ADC #$nn`, $69 (R231, R132). -/
def execAdcImm (v : Byte) (s : State) : Host.Outcome State Fault Refusal :=
  runInstr 2 false 1 (modeImm v) opAdc s
/-- `ADC $nn`, $65 (R231, R133). -/
def execAdcZp (zp : Byte) (s : State) : Host.Outcome State Fault Refusal :=
  runInstr 3 false 1 (modeZp zp) opAdc s
/-- `ADC $nn,X`, $75 (R231, R134). -/
def execAdcZpX (zp : Byte) (s : State) : Host.Outcome State Fault Refusal :=
  runInstr 4 false 1 (modeZpX zp) opAdc s
/-- `ADC $nnnn`, $6D (R231, R137). -/
def execAdcAbs (addr : Word) (s : State) : Host.Outcome State Fault Refusal :=
  runInstr 4 false 2 (modeAbs addr) opAdc s
/-- `ADC $nnnn,X`, $7D (R231, R138). -/
def execAdcAbsX (addr : Word) (s : State) : Host.Outcome State Fault Refusal :=
  runInstr 4 true 2 (modeAbsX addr) opAdc s
/-- `ADC $nnnn,Y`, $79 (R231, R139). -/
def execAdcAbsY (addr : Word) (s : State) : Host.Outcome State Fault Refusal :=
  runInstr 4 true 2 (modeAbsY addr) opAdc s
/-- `ADC ($nn,X)`, $61 (R231, R141). -/
def execAdcIndX (zp : Byte) (s : State) : Host.Outcome State Fault Refusal :=
  runInstr 6 false 1 (modeIndX zp) opAdc s
/-- `ADC ($nn),Y`, $71 (R231, R142). -/
def execAdcIndY (zp : Byte) (s : State) : Host.Outcome State Fault Refusal :=
  runInstr 5 true 1 (modeIndY zp) opAdc s
/-- `SBC #$nn`, $E9 (R232, R132). -/
def execSbcImm (v : Byte) (s : State) : Host.Outcome State Fault Refusal :=
  runInstr 2 false 1 (modeImm v) opSbc s
/-- `SBC $nn`, $E5 (R232, R133). -/
def execSbcZp (zp : Byte) (s : State) : Host.Outcome State Fault Refusal :=
  runInstr 3 false 1 (modeZp zp) opSbc s
/-- `SBC $nn,X`, $F5 (R232, R134). -/
def execSbcZpX (zp : Byte) (s : State) : Host.Outcome State Fault Refusal :=
  runInstr 4 false 1 (modeZpX zp) opSbc s
/-- `SBC $nnnn`, $ED (R232, R137). -/
def execSbcAbs (addr : Word) (s : State) : Host.Outcome State Fault Refusal :=
  runInstr 4 false 2 (modeAbs addr) opSbc s
/-- `SBC $nnnn,X`, $FD (R232, R138). -/
def execSbcAbsX (addr : Word) (s : State) : Host.Outcome State Fault Refusal :=
  runInstr 4 true 2 (modeAbsX addr) opSbc s
/-- `SBC $nnnn,Y`, $F9 (R232, R139). -/
def execSbcAbsY (addr : Word) (s : State) : Host.Outcome State Fault Refusal :=
  runInstr 4 true 2 (modeAbsY addr) opSbc s
/-- `SBC ($nn,X)`, $E1 (R232, R141). -/
def execSbcIndX (zp : Byte) (s : State) : Host.Outcome State Fault Refusal :=
  runInstr 6 false 1 (modeIndX zp) opSbc s
/-- `SBC ($nn),Y`, $F1 (R232, R142). -/
def execSbcIndY (zp : Byte) (s : State) : Host.Outcome State Fault Refusal :=
  runInstr 5 true 1 (modeIndY zp) opSbc s
/-- `AND #$nn`, $29 (R233, R132). -/
def execAndImm (v : Byte) (s : State) : Host.Outcome State Fault Refusal :=
  runInstr 2 false 1 (modeImm v) opAnd s
/-- `AND $nn`, $25 (R233, R133). -/
def execAndZp (zp : Byte) (s : State) : Host.Outcome State Fault Refusal :=
  runInstr 3 false 1 (modeZp zp) opAnd s
/-- `AND $nn,X`, $35 (R233, R134). -/
def execAndZpX (zp : Byte) (s : State) : Host.Outcome State Fault Refusal :=
  runInstr 4 false 1 (modeZpX zp) opAnd s
/-- `AND $nnnn`, $2D (R233, R137). -/
def execAndAbs (addr : Word) (s : State) : Host.Outcome State Fault Refusal :=
  runInstr 4 false 2 (modeAbs addr) opAnd s
/-- `AND $nnnn,X`, $3D (R233, R138). -/
def execAndAbsX (addr : Word) (s : State) : Host.Outcome State Fault Refusal :=
  runInstr 4 true 2 (modeAbsX addr) opAnd s
/-- `AND $nnnn,Y`, $39 (R233, R139). -/
def execAndAbsY (addr : Word) (s : State) : Host.Outcome State Fault Refusal :=
  runInstr 4 true 2 (modeAbsY addr) opAnd s
/-- `AND ($nn,X)`, $21 (R233, R141). -/
def execAndIndX (zp : Byte) (s : State) : Host.Outcome State Fault Refusal :=
  runInstr 6 false 1 (modeIndX zp) opAnd s
/-- `AND ($nn),Y`, $31 (R233, R142). -/
def execAndIndY (zp : Byte) (s : State) : Host.Outcome State Fault Refusal :=
  runInstr 5 true 1 (modeIndY zp) opAnd s
/-- `ORA #$nn`, $09 (R234, R132). -/
def execOraImm (v : Byte) (s : State) : Host.Outcome State Fault Refusal :=
  runInstr 2 false 1 (modeImm v) opOra s
/-- `ORA $nn`, $05 (R234, R133). -/
def execOraZp (zp : Byte) (s : State) : Host.Outcome State Fault Refusal :=
  runInstr 3 false 1 (modeZp zp) opOra s
/-- `ORA $nn,X`, $15 (R234, R134). -/
def execOraZpX (zp : Byte) (s : State) : Host.Outcome State Fault Refusal :=
  runInstr 4 false 1 (modeZpX zp) opOra s
/-- `ORA $nnnn`, $0D (R234, R137). -/
def execOraAbs (addr : Word) (s : State) : Host.Outcome State Fault Refusal :=
  runInstr 4 false 2 (modeAbs addr) opOra s
/-- `ORA $nnnn,X`, $1D (R234, R138). -/
def execOraAbsX (addr : Word) (s : State) : Host.Outcome State Fault Refusal :=
  runInstr 4 true 2 (modeAbsX addr) opOra s
/-- `ORA $nnnn,Y`, $19 (R234, R139). -/
def execOraAbsY (addr : Word) (s : State) : Host.Outcome State Fault Refusal :=
  runInstr 4 true 2 (modeAbsY addr) opOra s
/-- `ORA ($nn,X)`, $01 (R234, R141). -/
def execOraIndX (zp : Byte) (s : State) : Host.Outcome State Fault Refusal :=
  runInstr 6 false 1 (modeIndX zp) opOra s
/-- `ORA ($nn),Y`, $11 (R234, R142). -/
def execOraIndY (zp : Byte) (s : State) : Host.Outcome State Fault Refusal :=
  runInstr 5 true 1 (modeIndY zp) opOra s
/-- `EOR #$nn`, $49 (R235, R132). -/
def execEorImm (v : Byte) (s : State) : Host.Outcome State Fault Refusal :=
  runInstr 2 false 1 (modeImm v) opEor s
/-- `EOR $nn`, $45 (R235, R133). -/
def execEorZp (zp : Byte) (s : State) : Host.Outcome State Fault Refusal :=
  runInstr 3 false 1 (modeZp zp) opEor s
/-- `EOR $nn,X`, $55 (R235, R134). -/
def execEorZpX (zp : Byte) (s : State) : Host.Outcome State Fault Refusal :=
  runInstr 4 false 1 (modeZpX zp) opEor s
/-- `EOR $nnnn`, $4D (R235, R137). -/
def execEorAbs (addr : Word) (s : State) : Host.Outcome State Fault Refusal :=
  runInstr 4 false 2 (modeAbs addr) opEor s
/-- `EOR $nnnn,X`, $5D (R235, R138). -/
def execEorAbsX (addr : Word) (s : State) : Host.Outcome State Fault Refusal :=
  runInstr 4 true 2 (modeAbsX addr) opEor s
/-- `EOR $nnnn,Y`, $59 (R235, R139). -/
def execEorAbsY (addr : Word) (s : State) : Host.Outcome State Fault Refusal :=
  runInstr 4 true 2 (modeAbsY addr) opEor s
/-- `EOR ($nn,X)`, $41 (R235, R141). -/
def execEorIndX (zp : Byte) (s : State) : Host.Outcome State Fault Refusal :=
  runInstr 6 false 1 (modeIndX zp) opEor s
/-- `EOR ($nn),Y`, $51 (R235, R142). -/
def execEorIndY (zp : Byte) (s : State) : Host.Outcome State Fault Refusal :=
  runInstr 5 true 1 (modeIndY zp) opEor s
/-- `BIT $nn`, $24 (R236, R133). -/
def execBitZp (zp : Byte) (s : State) : Host.Outcome State Fault Refusal :=
  runInstr 3 false 1 (modeZp zp) opBit s
/-- `BIT $nnnn`, $2C (R236, R137). -/
def execBitAbs (addr : Word) (s : State) : Host.Outcome State Fault Refusal :=
  runInstr 4 false 2 (modeAbs addr) opBit s
/-- `CMP #$nn`, $C9 (R237, R132). -/
def execCmpImm (v : Byte) (s : State) : Host.Outcome State Fault Refusal :=
  runInstr 2 false 1 (modeImm v) opCmp s
/-- `CMP $nn`, $C5 (R237, R133). -/
def execCmpZp (zp : Byte) (s : State) : Host.Outcome State Fault Refusal :=
  runInstr 3 false 1 (modeZp zp) opCmp s
/-- `CMP $nn,X`, $D5 (R237, R134). -/
def execCmpZpX (zp : Byte) (s : State) : Host.Outcome State Fault Refusal :=
  runInstr 4 false 1 (modeZpX zp) opCmp s
/-- `CMP $nnnn`, $CD (R237, R137). -/
def execCmpAbs (addr : Word) (s : State) : Host.Outcome State Fault Refusal :=
  runInstr 4 false 2 (modeAbs addr) opCmp s
/-- `CMP $nnnn,X`, $DD (R237, R138). -/
def execCmpAbsX (addr : Word) (s : State) : Host.Outcome State Fault Refusal :=
  runInstr 4 true 2 (modeAbsX addr) opCmp s
/-- `CMP $nnnn,Y`, $D9 (R237, R139). -/
def execCmpAbsY (addr : Word) (s : State) : Host.Outcome State Fault Refusal :=
  runInstr 4 true 2 (modeAbsY addr) opCmp s
/-- `CMP ($nn,X)`, $C1 (R237, R141). -/
def execCmpIndX (zp : Byte) (s : State) : Host.Outcome State Fault Refusal :=
  runInstr 6 false 1 (modeIndX zp) opCmp s
/-- `CMP ($nn),Y`, $D1 (R237, R142). -/
def execCmpIndY (zp : Byte) (s : State) : Host.Outcome State Fault Refusal :=
  runInstr 5 true 1 (modeIndY zp) opCmp s
/-- `CPX #$nn`, $E0 (R238, R132). -/
def execCpxImm (v : Byte) (s : State) : Host.Outcome State Fault Refusal :=
  runInstr 2 false 1 (modeImm v) opCpx s
/-- `CPX $nn`, $E4 (R238, R133). -/
def execCpxZp (zp : Byte) (s : State) : Host.Outcome State Fault Refusal :=
  runInstr 3 false 1 (modeZp zp) opCpx s
/-- `CPX $nnnn`, $EC (R238, R137). -/
def execCpxAbs (addr : Word) (s : State) : Host.Outcome State Fault Refusal :=
  runInstr 4 false 2 (modeAbs addr) opCpx s
/-- `CPY #$nn`, $C0 (R239, R132). -/
def execCpyImm (v : Byte) (s : State) : Host.Outcome State Fault Refusal :=
  runInstr 2 false 1 (modeImm v) opCpy s
/-- `CPY $nn`, $C4 (R239, R133). -/
def execCpyZp (zp : Byte) (s : State) : Host.Outcome State Fault Refusal :=
  runInstr 3 false 1 (modeZp zp) opCpy s
/-- `CPY $nnnn`, $CC (R239, R137). -/
def execCpyAbs (addr : Word) (s : State) : Host.Outcome State Fault Refusal :=
  runInstr 4 false 2 (modeAbs addr) opCpy s
/-- `INC $nn`, $E6 (R240, R133). -/
def execIncZp (zp : Byte) (s : State) : Host.Outcome State Fault Refusal :=
  runInstr 5 false 1 (modeZp zp) opInc s
/-- `INC $nn,X`, $F6 (R240, R134). -/
def execIncZpX (zp : Byte) (s : State) : Host.Outcome State Fault Refusal :=
  runInstr 6 false 1 (modeZpX zp) opInc s
/-- `INC $nnnn`, $EE (R240, R137). -/
def execIncAbs (addr : Word) (s : State) : Host.Outcome State Fault Refusal :=
  runInstr 6 false 2 (modeAbs addr) opInc s
/-- `INC $nnnn,X`, $FE (R240, R138). -/
def execIncAbsX (addr : Word) (s : State) : Host.Outcome State Fault Refusal :=
  runInstr 7 false 2 (modeAbsX addr) opInc s
/-- `DEC $nn`, $C6 (R241, R133). -/
def execDecZp (zp : Byte) (s : State) : Host.Outcome State Fault Refusal :=
  runInstr 5 false 1 (modeZp zp) opDec s
/-- `DEC $nn,X`, $D6 (R241, R134). -/
def execDecZpX (zp : Byte) (s : State) : Host.Outcome State Fault Refusal :=
  runInstr 6 false 1 (modeZpX zp) opDec s
/-- `DEC $nnnn`, $CE (R241, R137). -/
def execDecAbs (addr : Word) (s : State) : Host.Outcome State Fault Refusal :=
  runInstr 6 false 2 (modeAbs addr) opDec s
/-- `DEC $nnnn,X`, $DE (R241, R138). -/
def execDecAbsX (addr : Word) (s : State) : Host.Outcome State Fault Refusal :=
  runInstr 7 false 2 (modeAbsX addr) opDec s
/-- `INX`, $E8 (R242, R130). -/
def execInx (s : State) : Host.Outcome State Fault Refusal :=
  runInstr 2 false 0 modeImp opInx s
/-- `INY`, $C8 (R243, R130). -/
def execIny (s : State) : Host.Outcome State Fault Refusal :=
  runInstr 2 false 0 modeImp opIny s
/-- `DEX`, $CA (R244, R130). -/
def execDex (s : State) : Host.Outcome State Fault Refusal :=
  runInstr 2 false 0 modeImp opDex s
/-- `DEY`, $88 (R245, R130). -/
def execDey (s : State) : Host.Outcome State Fault Refusal :=
  runInstr 2 false 0 modeImp opDey s
/-- `ASL A`, $0A (R246, R131). -/
def execAslAcc (s : State) : Host.Outcome State Fault Refusal :=
  runInstr 2 false 0 modeAcc opAsl s
/-- `ASL $nn`, $06 (R246, R133). -/
def execAslZp (zp : Byte) (s : State) : Host.Outcome State Fault Refusal :=
  runInstr 5 false 1 (modeZp zp) opAsl s
/-- `ASL $nn,X`, $16 (R246, R134). -/
def execAslZpX (zp : Byte) (s : State) : Host.Outcome State Fault Refusal :=
  runInstr 6 false 1 (modeZpX zp) opAsl s
/-- `ASL $nnnn`, $0E (R246, R137). -/
def execAslAbs (addr : Word) (s : State) : Host.Outcome State Fault Refusal :=
  runInstr 6 false 2 (modeAbs addr) opAsl s
/-- `ASL $nnnn,X`, $1E (R246, R138). -/
def execAslAbsX (addr : Word) (s : State) : Host.Outcome State Fault Refusal :=
  runInstr 7 false 2 (modeAbsX addr) opAsl s
/-- `LSR A`, $4A (R247, R131). -/
def execLsrAcc (s : State) : Host.Outcome State Fault Refusal :=
  runInstr 2 false 0 modeAcc opLsr s
/-- `LSR $nn`, $46 (R247, R133). -/
def execLsrZp (zp : Byte) (s : State) : Host.Outcome State Fault Refusal :=
  runInstr 5 false 1 (modeZp zp) opLsr s
/-- `LSR $nn,X`, $56 (R247, R134). -/
def execLsrZpX (zp : Byte) (s : State) : Host.Outcome State Fault Refusal :=
  runInstr 6 false 1 (modeZpX zp) opLsr s
/-- `LSR $nnnn`, $4E (R247, R137). -/
def execLsrAbs (addr : Word) (s : State) : Host.Outcome State Fault Refusal :=
  runInstr 6 false 2 (modeAbs addr) opLsr s
/-- `LSR $nnnn,X`, $5E (R247, R138). -/
def execLsrAbsX (addr : Word) (s : State) : Host.Outcome State Fault Refusal :=
  runInstr 7 false 2 (modeAbsX addr) opLsr s
/-- `ROL A`, $2A (R248, R131). -/
def execRolAcc (s : State) : Host.Outcome State Fault Refusal :=
  runInstr 2 false 0 modeAcc opRol s
/-- `ROL $nn`, $26 (R248, R133). -/
def execRolZp (zp : Byte) (s : State) : Host.Outcome State Fault Refusal :=
  runInstr 5 false 1 (modeZp zp) opRol s
/-- `ROL $nn,X`, $36 (R248, R134). -/
def execRolZpX (zp : Byte) (s : State) : Host.Outcome State Fault Refusal :=
  runInstr 6 false 1 (modeZpX zp) opRol s
/-- `ROL $nnnn`, $2E (R248, R137). -/
def execRolAbs (addr : Word) (s : State) : Host.Outcome State Fault Refusal :=
  runInstr 6 false 2 (modeAbs addr) opRol s
/-- `ROL $nnnn,X`, $3E (R248, R138). -/
def execRolAbsX (addr : Word) (s : State) : Host.Outcome State Fault Refusal :=
  runInstr 7 false 2 (modeAbsX addr) opRol s
/-- `ROR A`, $6A (R249, R131). -/
def execRorAcc (s : State) : Host.Outcome State Fault Refusal :=
  runInstr 2 false 0 modeAcc opRor s
/-- `ROR $nn`, $66 (R249, R133). -/
def execRorZp (zp : Byte) (s : State) : Host.Outcome State Fault Refusal :=
  runInstr 5 false 1 (modeZp zp) opRor s
/-- `ROR $nn,X`, $76 (R249, R134). -/
def execRorZpX (zp : Byte) (s : State) : Host.Outcome State Fault Refusal :=
  runInstr 6 false 1 (modeZpX zp) opRor s
/-- `ROR $nnnn`, $6E (R249, R137). -/
def execRorAbs (addr : Word) (s : State) : Host.Outcome State Fault Refusal :=
  runInstr 6 false 2 (modeAbs addr) opRor s
/-- `ROR $nnnn,X`, $7E (R249, R138). -/
def execRorAbsX (addr : Word) (s : State) : Host.Outcome State Fault Refusal :=
  runInstr 7 false 2 (modeAbsX addr) opRor s

end Sys2Proof.Machine
end

