-- ==== Sys2Proof/Machine/Control.lean ====
section
/-! DEFINITION. Jumps, subroutines, returns, BRK and branches (43_control_transfer.md R270–R283): the operation of
each mnemonic, then one meaning per row of the opcode table (30_encoding.md R124), with the row's base cycles, its page-cross
mark and its number of operand bytes. -/

namespace Sys2Proof.Machine

/-- The address an operand stands for: JMP, JSR and the branches use it and never read it (R137, R163). -/
def withTarget (f : Word → State → Result State) : Operation := fun pc0 m s =>
  match m.opnd with
  | .ram ea => f ea s
  | _ => .error (.raised (.operandMisuse pc0) s)

/-- `Branch(cond)` (R270): taken, 1 cycle more and PC at the target; taken across a page, 2 cycles more. -/
def branch (cond : State → Bool) : Operation := fun pc0 m s =>
  if cond s then withTarget (fun ea s => .ok ((addCycles (if m.cross then 2 else 1) s).setPc ea)) pc0 m s else .ok s

/-- JMP (R271). -/
def opJmp : Operation := withTarget fun ea s => .ok (s.setPc ea)
/-- JSR (R272): it pushes the address of its own last byte. -/
def opJsr : Operation := fun pc0 => withTarget (fun ea s => do .ok ((← push16 (pc0 + 2) s).setPc ea)) pc0
/-- RTS (R273). -/
def opRts : Operation := fun _ _ s => do
  let (pc, s) ← pull16 s
  .ok (s.setPc (pc + 1))
/-- RTI (R274). -/
def opRti : Operation := fun _ _ s => returnFromException s
/-- BRK (R275): it pushes pc0 + 2 and the status byte with B and bit 5 set, and takes the exception of $FFFE. -/
def opBrk : Operation := fun pc0 _ s => takeException (pc0 + 2) (getP s.flags ||| 0x30) irqVector s
/-- BCC (R276). -/
def opBcc : Operation := branch fun s => !s.flags.c
/-- BCS (R277). -/
def opBcs : Operation := branch fun s => s.flags.c
/-- BEQ (R278). -/
def opBeq : Operation := branch fun s => s.flags.z
/-- BMI (R279). -/
def opBmi : Operation := branch fun s => s.flags.n
/-- BNE (R280). -/
def opBne : Operation := branch fun s => !s.flags.z
/-- BPL (R281). -/
def opBpl : Operation := branch fun s => !s.flags.n
/-- BVC (R282). -/
def opBvc : Operation := branch fun s => !s.flags.v
/-- BVS (R283). -/
def opBvs : Operation := branch fun s => s.flags.v

/-- `JMP $nnnn`, $4C (R271, R137). -/
def execJmpAbs (addr : Word) (s : State) : Host.Outcome State Fault Refusal :=
  runInstr 3 false 2 (modeAbs addr) opJmp s
/-- `JMP ($nnnn)`, $6C (R271, R140). -/
def execJmpInd (addr : Word) (s : State) : Host.Outcome State Fault Refusal :=
  runInstr 5 false 2 (modeInd addr) opJmp s
/-- `JSR $nnnn`, $20 (R272, R137). -/
def execJsr (addr : Word) (s : State) : Host.Outcome State Fault Refusal :=
  runInstr 6 false 2 (modeAbs addr) opJsr s
/-- `RTS`, $60 (R273, R130). -/
def execRts (s : State) : Host.Outcome State Fault Refusal :=
  runInstr 6 false 0 modeImp opRts s
/-- `RTI`, $40 (R274, R130). -/
def execRti (s : State) : Host.Outcome State Fault Refusal :=
  runInstr 6 false 0 modeImp opRti s
/-- `BRK`, $00 (R275, R130). -/
def execBrk (s : State) : Host.Outcome State Fault Refusal :=
  runInstr 7 false 0 modeImp opBrk s
/-- `BCC $tttt`, $90 (R276, R136). -/
def execBcc (off : Byte) (s : State) : Host.Outcome State Fault Refusal :=
  runInstr 2 false 1 (modeRel off) opBcc s
/-- `BCS $tttt`, $B0 (R277, R136). -/
def execBcs (off : Byte) (s : State) : Host.Outcome State Fault Refusal :=
  runInstr 2 false 1 (modeRel off) opBcs s
/-- `BEQ $tttt`, $F0 (R278, R136). -/
def execBeq (off : Byte) (s : State) : Host.Outcome State Fault Refusal :=
  runInstr 2 false 1 (modeRel off) opBeq s
/-- `BMI $tttt`, $30 (R279, R136). -/
def execBmi (off : Byte) (s : State) : Host.Outcome State Fault Refusal :=
  runInstr 2 false 1 (modeRel off) opBmi s
/-- `BNE $tttt`, $D0 (R280, R136). -/
def execBne (off : Byte) (s : State) : Host.Outcome State Fault Refusal :=
  runInstr 2 false 1 (modeRel off) opBne s
/-- `BPL $tttt`, $10 (R281, R136). -/
def execBpl (off : Byte) (s : State) : Host.Outcome State Fault Refusal :=
  runInstr 2 false 1 (modeRel off) opBpl s
/-- `BVC $tttt`, $50 (R282, R136). -/
def execBvc (off : Byte) (s : State) : Host.Outcome State Fault Refusal :=
  runInstr 2 false 1 (modeRel off) opBvc s
/-- `BVS $tttt`, $70 (R283, R136). -/
def execBvs (off : Byte) (s : State) : Host.Outcome State Fault Refusal :=
  runInstr 2 false 1 (modeRel off) opBvs s

end Sys2Proof.Machine
end

