-- ==== Sys2Proof/Machine/FlagOps.lean ====
section
/-! DEFINITION. Flag instructions and NOP (44_flags_misc.md R300–R308): the operation of
each mnemonic, then one meaning per row of the opcode table (30_encoding.md R124), with the row's base cycles, its page-cross
mark and its number of operand bytes. -/

namespace Sys2Proof.Machine

/-- The flag instructions write one flag and nothing else (R300). -/
def changeFlags (f : Flags → Flags) : Operation := fun _ _ s => .ok (s.setFlags (f s.flags))

/-- CLC (R301). -/
def opClc : Operation := changeFlags fun f => { f with c := false }
/-- SEC (R302). -/
def opSec : Operation := changeFlags fun f => { f with c := true }
/-- CLI (R303). -/
def opCli : Operation := changeFlags fun f => { f with i := false }
/-- SEI (R304). -/
def opSei : Operation := changeFlags fun f => { f with i := true }
/-- CLD (R305). -/
def opCld : Operation := changeFlags fun f => { f with d := false }
/-- SED (R306). -/
def opSed : Operation := changeFlags fun f => { f with d := true }
/-- CLV (R307). -/
def opClv : Operation := changeFlags fun f => { f with v := false }
/-- NOP (R308). -/
def opNop : Operation := fun _ _ s => .ok s

/-- `CLC`, $18 (R301, R130). -/
def execClc (s : State) : Host.Outcome State Fault Refusal :=
  runInstr 2 false 0 modeImp opClc s
/-- `SEC`, $38 (R302, R130). -/
def execSec (s : State) : Host.Outcome State Fault Refusal :=
  runInstr 2 false 0 modeImp opSec s
/-- `CLI`, $58 (R303, R130). -/
def execCli (s : State) : Host.Outcome State Fault Refusal :=
  runInstr 2 false 0 modeImp opCli s
/-- `SEI`, $78 (R304, R130). -/
def execSei (s : State) : Host.Outcome State Fault Refusal :=
  runInstr 2 false 0 modeImp opSei s
/-- `CLD`, $D8 (R305, R130). -/
def execCld (s : State) : Host.Outcome State Fault Refusal :=
  runInstr 2 false 0 modeImp opCld s
/-- `SED`, $F8 (R306, R130). -/
def execSed (s : State) : Host.Outcome State Fault Refusal :=
  runInstr 2 false 0 modeImp opSed s
/-- `CLV`, $B8 (R307, R130). -/
def execClv (s : State) : Host.Outcome State Fault Refusal :=
  runInstr 2 false 0 modeImp opClv s
/-- `NOP`, $EA (R308, R130). -/
def execNop (s : State) : Host.Outcome State Fault Refusal :=
  runInstr 2 false 0 modeImp opNop s

end Sys2Proof.Machine
end

