-- ==== Sys2Proof/Machine/LoadStore.lean ====
section
/-! DEFINITION. Loads, stores, register transfers and stack instructions (41_load_store_transfer.md R200–R216): the operation of
each mnemonic, then one meaning per row of the opcode table (30_encoding.md R124), with the row's base cycles, its page-cross
mark and its number of operand bytes. -/

namespace Sys2Proof.Machine

/-- The three loads share this: `M <- opnd.read()`, a register takes M, N and Z follow (R201–R203). -/
def loadRegister (r : Reg) : Operation := fun pc0 m s => do
  let (v, s) ← readOperand pc0 m.opnd s
  .ok ((writeReg r v s).setFlags (setNZ v s.flags))

/-- The transfers that set N and Z share this (R207–R211): a register takes a value, N and Z follow. -/
def transferTo (r : Reg) (v : State → Byte) : Operation := fun _ _ s =>
  .ok ((writeReg r (v s) s).setFlags (setNZ (v s) s.flags))

/-- LDA (R201). -/
def opLda : Operation := loadRegister .a
/-- LDX (R202). -/
def opLdx : Operation := loadRegister .x
/-- LDY (R203). -/
def opLdy : Operation := loadRegister .y
/-- STA (R204): a store does not read EA. -/
def opSta : Operation := fun pc0 m s => writeOperand pc0 m.opnd s.a s
/-- STX (R205). -/
def opStx : Operation := fun pc0 m s => writeOperand pc0 m.opnd s.x s
/-- STY (R206). -/
def opSty : Operation := fun pc0 m s => writeOperand pc0 m.opnd s.y s
/-- TAX (R207). -/
def opTax : Operation := transferTo .x State.a
/-- TAY (R208). -/
def opTay : Operation := transferTo .y State.a
/-- TXA (R209). -/
def opTxa : Operation := transferTo .a State.x
/-- TYA (R210). -/
def opTya : Operation := transferTo .a State.y
/-- TSX (R211). -/
def opTsx : Operation := transferTo .x State.sp
/-- TXS (R212): the only transfer that writes no flag. -/
def opTxs : Operation := fun _ _ s => .ok (s.setSp s.x)
/-- PHA (R213). -/
def opPha : Operation := fun _ _ s => push s.a s
/-- PHP (R214): bits 5 and 4 of the pushed byte are 1. -/
def opPhp : Operation := fun _ _ s => push (getP s.flags ||| 0x30) s
/-- PLA (R215). -/
def opPla : Operation := fun _ _ s => do
  let (v, s) ← pull s
  .ok ((s.setA v).setFlags (setNZ v s.flags))
/-- PLP (R216). -/
def opPlp : Operation := fun _ _ s => do
  let (p, s) ← pull s
  .ok (s.setFlags (setP p))

/-- `LDA #$nn`, $A9 (R201, R132). -/
def execLdaImm (v : Byte) (s : State) : Host.Outcome State Fault Refusal :=
  runInstr 2 false 1 (modeImm v) opLda s
/-- `LDA $nn`, $A5 (R201, R133). -/
def execLdaZp (zp : Byte) (s : State) : Host.Outcome State Fault Refusal :=
  runInstr 3 false 1 (modeZp zp) opLda s
/-- `LDA $nn,X`, $B5 (R201, R134). -/
def execLdaZpX (zp : Byte) (s : State) : Host.Outcome State Fault Refusal :=
  runInstr 4 false 1 (modeZpX zp) opLda s
/-- `LDA $nnnn`, $AD (R201, R137). -/
def execLdaAbs (addr : Word) (s : State) : Host.Outcome State Fault Refusal :=
  runInstr 4 false 2 (modeAbs addr) opLda s
/-- `LDA $nnnn,X`, $BD (R201, R138). -/
def execLdaAbsX (addr : Word) (s : State) : Host.Outcome State Fault Refusal :=
  runInstr 4 true 2 (modeAbsX addr) opLda s
/-- `LDA $nnnn,Y`, $B9 (R201, R139). -/
def execLdaAbsY (addr : Word) (s : State) : Host.Outcome State Fault Refusal :=
  runInstr 4 true 2 (modeAbsY addr) opLda s
/-- `LDA ($nn,X)`, $A1 (R201, R141). -/
def execLdaIndX (zp : Byte) (s : State) : Host.Outcome State Fault Refusal :=
  runInstr 6 false 1 (modeIndX zp) opLda s
/-- `LDA ($nn),Y`, $B1 (R201, R142). -/
def execLdaIndY (zp : Byte) (s : State) : Host.Outcome State Fault Refusal :=
  runInstr 5 true 1 (modeIndY zp) opLda s
/-- `LDX #$nn`, $A2 (R202, R132). -/
def execLdxImm (v : Byte) (s : State) : Host.Outcome State Fault Refusal :=
  runInstr 2 false 1 (modeImm v) opLdx s
/-- `LDX $nn`, $A6 (R202, R133). -/
def execLdxZp (zp : Byte) (s : State) : Host.Outcome State Fault Refusal :=
  runInstr 3 false 1 (modeZp zp) opLdx s
/-- `LDX $nn,Y`, $B6 (R202, R135). -/
def execLdxZpY (zp : Byte) (s : State) : Host.Outcome State Fault Refusal :=
  runInstr 4 false 1 (modeZpY zp) opLdx s
/-- `LDX $nnnn`, $AE (R202, R137). -/
def execLdxAbs (addr : Word) (s : State) : Host.Outcome State Fault Refusal :=
  runInstr 4 false 2 (modeAbs addr) opLdx s
/-- `LDX $nnnn,Y`, $BE (R202, R139). -/
def execLdxAbsY (addr : Word) (s : State) : Host.Outcome State Fault Refusal :=
  runInstr 4 true 2 (modeAbsY addr) opLdx s
/-- `LDY #$nn`, $A0 (R203, R132). -/
def execLdyImm (v : Byte) (s : State) : Host.Outcome State Fault Refusal :=
  runInstr 2 false 1 (modeImm v) opLdy s
/-- `LDY $nn`, $A4 (R203, R133). -/
def execLdyZp (zp : Byte) (s : State) : Host.Outcome State Fault Refusal :=
  runInstr 3 false 1 (modeZp zp) opLdy s
/-- `LDY $nn,X`, $B4 (R203, R134). -/
def execLdyZpX (zp : Byte) (s : State) : Host.Outcome State Fault Refusal :=
  runInstr 4 false 1 (modeZpX zp) opLdy s
/-- `LDY $nnnn`, $AC (R203, R137). -/
def execLdyAbs (addr : Word) (s : State) : Host.Outcome State Fault Refusal :=
  runInstr 4 false 2 (modeAbs addr) opLdy s
/-- `LDY $nnnn,X`, $BC (R203, R138). -/
def execLdyAbsX (addr : Word) (s : State) : Host.Outcome State Fault Refusal :=
  runInstr 4 true 2 (modeAbsX addr) opLdy s
/-- `STA $nn`, $85 (R204, R133). -/
def execStaZp (zp : Byte) (s : State) : Host.Outcome State Fault Refusal :=
  runInstr 3 false 1 (modeZp zp) opSta s
/-- `STA $nn,X`, $95 (R204, R134). -/
def execStaZpX (zp : Byte) (s : State) : Host.Outcome State Fault Refusal :=
  runInstr 4 false 1 (modeZpX zp) opSta s
/-- `STA $nnnn`, $8D (R204, R137). -/
def execStaAbs (addr : Word) (s : State) : Host.Outcome State Fault Refusal :=
  runInstr 4 false 2 (modeAbs addr) opSta s
/-- `STA $nnnn,X`, $9D (R204, R138). -/
def execStaAbsX (addr : Word) (s : State) : Host.Outcome State Fault Refusal :=
  runInstr 5 false 2 (modeAbsX addr) opSta s
/-- `STA $nnnn,Y`, $99 (R204, R139). -/
def execStaAbsY (addr : Word) (s : State) : Host.Outcome State Fault Refusal :=
  runInstr 5 false 2 (modeAbsY addr) opSta s
/-- `STA ($nn,X)`, $81 (R204, R141). -/
def execStaIndX (zp : Byte) (s : State) : Host.Outcome State Fault Refusal :=
  runInstr 6 false 1 (modeIndX zp) opSta s
/-- `STA ($nn),Y`, $91 (R204, R142). -/
def execStaIndY (zp : Byte) (s : State) : Host.Outcome State Fault Refusal :=
  runInstr 6 false 1 (modeIndY zp) opSta s
/-- `STX $nn`, $86 (R205, R133). -/
def execStxZp (zp : Byte) (s : State) : Host.Outcome State Fault Refusal :=
  runInstr 3 false 1 (modeZp zp) opStx s
/-- `STX $nn,Y`, $96 (R205, R135). -/
def execStxZpY (zp : Byte) (s : State) : Host.Outcome State Fault Refusal :=
  runInstr 4 false 1 (modeZpY zp) opStx s
/-- `STX $nnnn`, $8E (R205, R137). -/
def execStxAbs (addr : Word) (s : State) : Host.Outcome State Fault Refusal :=
  runInstr 4 false 2 (modeAbs addr) opStx s
/-- `STY $nn`, $84 (R206, R133). -/
def execStyZp (zp : Byte) (s : State) : Host.Outcome State Fault Refusal :=
  runInstr 3 false 1 (modeZp zp) opSty s
/-- `STY $nn,X`, $94 (R206, R134). -/
def execStyZpX (zp : Byte) (s : State) : Host.Outcome State Fault Refusal :=
  runInstr 4 false 1 (modeZpX zp) opSty s
/-- `STY $nnnn`, $8C (R206, R137). -/
def execStyAbs (addr : Word) (s : State) : Host.Outcome State Fault Refusal :=
  runInstr 4 false 2 (modeAbs addr) opSty s
/-- `TAX`, $AA (R207, R130). -/
def execTax (s : State) : Host.Outcome State Fault Refusal :=
  runInstr 2 false 0 modeImp opTax s
/-- `TAY`, $A8 (R208, R130). -/
def execTay (s : State) : Host.Outcome State Fault Refusal :=
  runInstr 2 false 0 modeImp opTay s
/-- `TXA`, $8A (R209, R130). -/
def execTxa (s : State) : Host.Outcome State Fault Refusal :=
  runInstr 2 false 0 modeImp opTxa s
/-- `TYA`, $98 (R210, R130). -/
def execTya (s : State) : Host.Outcome State Fault Refusal :=
  runInstr 2 false 0 modeImp opTya s
/-- `TSX`, $BA (R211, R130). -/
def execTsx (s : State) : Host.Outcome State Fault Refusal :=
  runInstr 2 false 0 modeImp opTsx s
/-- `TXS`, $9A (R212, R130). -/
def execTxs (s : State) : Host.Outcome State Fault Refusal :=
  runInstr 2 false 0 modeImp opTxs s
/-- `PHA`, $48 (R213, R130). -/
def execPha (s : State) : Host.Outcome State Fault Refusal :=
  runInstr 3 false 0 modeImp opPha s
/-- `PHP`, $08 (R214, R130). -/
def execPhp (s : State) : Host.Outcome State Fault Refusal :=
  runInstr 3 false 0 modeImp opPhp s
/-- `PLA`, $68 (R215, R130). -/
def execPla (s : State) : Host.Outcome State Fault Refusal :=
  runInstr 4 false 0 modeImp opPla s
/-- `PLP`, $28 (R216, R130). -/
def execPlp (s : State) : Host.Outcome State Fault Refusal :=
  runInstr 4 false 0 modeImp opPlp s

end Sys2Proof.Machine
end

