-- ==== Sys2Proof/Machine/Gate.lean ====
section
/-! DEFINITION. The debug break gate (60_exceptions.md R355–R359) and what the host can do to the machine between two steps
(00_scope.md R5, 20_memory.md R86, 60_exceptions.md R333, R355, R358, R359). -/

namespace Sys2Proof.Machine

/-- How the gate before a step ends. -/
inductive GateAnswer where
  /-- The step goes on, from this state. -/
  | pass (s : State)
  /-- No step: the gate waits for a signal, or the host has stopped the core. -/
  | hold (s : State)
  deriving DecidableEq, Repr

/-- The gate breaks here (R355): it waits already, or the mode is debug and the place or the stepping asks for it. -/
def breaksHere (s : State) : Bool :=
  s.gate.waiting || (s.gate.mode == .debug && (s.gate.first || s.gate.stepping || s.gate.breaks.contains s.pc))

/-- The BreakState of this gate is published, once (R355, R356). -/
def publish (s : State) : Gate :=
  if s.gate.waiting then s.gate else { s.gate with waiting := true, published := ⟨s.pc, none⟩ :: s.gate.published }

/-- `Gate(first, stepping)` (R355). A gate that finds no signal leaves the machine waiting, all but the gate unchanged. A stop
called before the gate makes the core Stopped here, before any step and before any signal is taken (R359; DEDUCED, log entry
10). A gate takes one signal and leaves the rest in the queue, so that a second signal sent while one gate waits answers a
later gate, which then does not wait: the spec is silent on surplus signals (DESIGN CHOICE, log entry 9). -/
def runGate (s : State) : GateAnswer :=
  if breaksHere s then
    let g := publish s
    if g.stopRequested then .hold ((s.setGate { g with waiting := false, stopRequested := false }).setStatus .stopped)
    else match g.signals with
    | [] => .hold (s.setGate g)
    | .continue :: rest =>
      .pass (s.setGate { g with first := false, stepping := false, waiting := false, signals := rest })
    | .next :: rest => .pass (s.setGate { g with first := false, stepping := true, waiting := false, signals := rest })
    | .stop :: rest => .hold ((s.setGate { g with waiting := false, signals := rest }).setStatus .stopped)
  else .pass (s.setGate { s.gate with first := false })

/-- R359: a stop that came during the step takes effect when the step is complete. -/
def applyStop (s : State) : State :=
  if s.gate.stopRequested then (s.setGate { s.gate with stopRequested := false }).setStatus .stopped else s

/-! The host, between two steps -/

/-- `add_break(addr)` (R358): BREAKS with an address, rising and without repeats. -/
def addBreak (addr : Word) : List Word → List Word
  | [] => [addr]
  | b :: rest => if addr < b then addr :: b :: rest else if addr = b then b :: rest else b :: addBreak addr rest

/-- The host edits BREAKS: `add_break` (R358). The rule says that the edits are issued only while the gate waits, and leaves
open what one does at another time: here, and in the two edits below, it acts in every state (DESIGN CHOICE, log entry 9). -/
def hostAddBreak (addr : Word) (s : State) : State := s.setGate { s.gate with breaks := addBreak addr s.gate.breaks }

/-- `remove_break` (R358), in every state (DESIGN CHOICE, log entry 9). -/
def hostRemoveBreak (addr : Word) (s : State) : State :=
  s.setGate { s.gate with breaks := s.gate.breaks.filter (· != addr) }

/-- `list_breaks` (R358). -/
def hostListBreaks (s : State) : List Word := s.gate.breaks

/-- `clear_breaks` (R358), in every state (DESIGN CHOICE, log entry 9). -/
def hostClearBreaks (s : State) : State := s.setGate { s.gate with breaks := [] }

/-- The host answers a waiting gate (R355); a signal to a gate that does not wait is no operation of the spec's and is dropped
(DESIGN CHOICE, log entry 9). -/
def hostSignal (sig : Signal) (s : State) : State :=
  if s.gate.waiting then s.setGate { s.gate with signals := s.gate.signals ++ [sig] } else s

/-- `stop()` (R359): at a waiting gate at once, else when the running step is complete, or at the next gate if that one breaks;
a second stop changes nothing. -/
def hostStop (s : State) : State :=
  if s.status ≠ .running then s
  else if s.gate.waiting then (s.setGate { s.gate with waiting := false }).setStatus .stopped
  else s.setGate { s.gate with stopRequested := true }

/-- The host sets BUTTONS (R86). -/
def hostButtons (buttons : Byte) (s : State) : State := s.setPad { s.pad with buttons := some buttons }

/-- The host drives the IRQ level (R333). -/
def hostIrqLine (level : Bool) (s : State) : State := { s with irqLine := level }

end Sys2Proof.Machine
end

