-- ==== Sys2Proof/Machine/Fetch.lean ====
section
/-! DEFINITION. Fetching an instruction (40_step.md R161, R162; 30_encoding.md R122, R125): the opcode byte at PC, then
its operand bytes, each by a bus read with its side effects. Also the placing of an instruction where the next fetch
finds it, for the host. -/

namespace Sys2Proof.Machine

/-- The instruction at PC and the state after the reads that fetched it; PC still holds pc0. An illegal opcode byte faults
before any operand byte is read (R125). A fault leaves what the reads before it changed, and PC at pc0 (R323). -/
def fetchInstr (s : State) : Result (Instr × State) := do
  let (op, s1) ← memRead s.pc s
  match opcodeTable op with
  | none => .error (.raised (.unknownOpcode s.pc op) s1)
  | some (.f1 i) => .ok (i, s1)
  | some (.f2 mk) =>
    let (b1, s2) ← memRead (s.pc + 1) s1
    .ok (mk b1, s2)
  | some (.f3 mk) =>
    let (b1, s2) ← memRead (s.pc + 1) s1
    let (b2, s3) ← memRead (s.pc + 2) s2
    .ok (mk (mkWord b1 b2), s3)

/-- Whether the bus has a byte of storage at an address that an instruction can be placed in and fetched from. -/
def isStorage (addr : Word) (s : State) : Bool :=
  let a := addr.toNat
  decide (a ≤ 0x1FFF) || decide (0x8000 ≤ a) || (decide (0x6000 ≤ a) && hasCartRam s.cart)

/-- The byte of storage at an address set from outside: RAM, cartridge RAM, or a byte of the cartridge's PRG-ROM. -/
def placeByte (addr : Word) (d : Byte) (s : State) : State :=
  let a := addr.toNat
  if a ≤ 0x1FFF then s.setRam (s.ram.write (a % 2048) d)
  else if 0x8000 ≤ a then { s with cart := { s.cart with prg := s.cart.prg.write (prgOffset s a) d } }
  else if 0x6000 ≤ a then s.setCartRam (s.cartRam.write (a - 0x6000) d)
  else s

/-- PC, if three bytes from it can be placed; else PC moved to $0200, in RAM (log entry 19). -/
def placeablePc (s : State) : State :=
  if isStorage s.pc s && isStorage (s.pc + 1) s && isStorage (s.pc + 2) s then s else s.setPc 0x0200

/-- What would keep the next step from fetching is taken away: a stop, a latched NMI, an unmasked IRQ, a gate that would
break (R38, R331, R333, R355). -/
def readyToFetch (s : State) : State :=
  { s with
    status := .running, nmiLatch := false, irqLine := s.irqLine && s.flags.i,
    gate := if breaksHere s then { s.gate with mode := .run, waiting := false } else s.gate }

/-- The bytes at PC, PC + 1, …. -/
def placeBytes : Word → List Byte → State → State
  | _, [], s => s
  | addr, b :: rest, s => placeBytes (addr + 1) rest (placeByte addr b s)

end Sys2Proof.Machine
end

