-- ==== Sys2Proof/Machine/Load.lean ====
section
/-! DEFINITION. Reset (70_reset_and_hazards.md R370–R376): `load` of a cartridge, with every parameter the spec leaves open
as an argument. -/

namespace Sys2Proof.Machine

/-- RESET_REGS (R371). -/
structure ResetRegs where
  a : Byte
  x : Byte
  y : Byte
  sp : Byte
  flags : Flags
  deriving DecidableEq, Repr

/-- MEM_INIT (R372): the contents of every memory that is no ROM. -/
structure MemInit where
  ram : Memory
  cartRam : Memory
  chrRam : Memory
  ciram : Memory
  pal : Memory
  oam : Memory
  deriving DecidableEq, Repr

/-- MEM_INIT is a list of bytes of each memory in canonical form. -/
def MemInit.wf (m : MemInit) : Bool :=
  Memory.wf 2048 m.ram && Memory.wf 8192 m.cartRam && Memory.wf 8192 m.chrRam && Memory.wf 2048 m.ciram &&
    Memory.wf 32 m.pal && Memory.wf 256 m.oam

/-- The parameters of a load (R7). -/
structure LoadParams where
  image : CartImage
  regs : ResetRegs
  mem : MemInit
  /-- PPU_START (R373). -/
  scanline : Nat
  dot : Nat
  /-- BUTTONS, if the host has set them (R86). -/
  buttons : Option Byte
  /-- IRQ_LINE at the first step (R333). -/
  irqLine : Bool
  /-- MODE and BREAKS (R355). -/
  mode : RunMode
  breaks : List Word
  deriving DecidableEq, Repr

/-- Everything of `load` but PC (R371–R375). -/
def loadState (p : LoadParams) (c : Cart) : State :=
  { a := p.regs.a, x := p.regs.x, y := p.regs.y, sp := p.regs.sp, pc := 0, flags := p.regs.flags, nmiLatch := false,
    irqLine := p.irqLine, odd := false, cycles := 0, stepCycles := 0, status := .running, ram := p.mem.ram,
    ppu := Ppu.reset p.mem.oam p.mem.ciram p.mem.pal p.scanline p.dot,
    pad := { ptr := 0, strobe := false, buttons := p.buttons }, cart := c, mmc1 := Mmc1.reset, cartRam := p.mem.cartRam,
    chrRam := p.mem.chrRam, gate := Gate.reset p.mode p.breaks, draws := 0 }

/-- `Load(CART)` (R370): the state of R371–R375, and PC from the reset vector through the reset-state mapper. An image that
has no CART value is refused (R7, R90). -/
def load (p : LoadParams) : Host.Outcome State Fault Refusal :=
  match p.image.toCart with
  | .error r => .refused (.cartridge r)
  | .ok c => toOutcome (jumpThrough resetVector (loadState p c))

/-- The parameters that `State.reset` stands for (log entries 1–4, 7–9). -/
def defaultParams : LoadParams :=
  { image :=
      { mapperNumber := 0, fourScreen := false, prgPages := 2, prg := [], chrPages := 0, chr := [], mirroring := .vertical,
        nromSram := false },
    regs := { a := 0, x := 0, y := 0, sp := 0, flags := Flags.zero },
    mem := { ram := [], cartRam := [], chrRam := [], ciram := [], pal := [], oam := [] },
    scanline := 0, dot := 0, buttons := none, irqLine := false, mode := .run, breaks := [] }

end Sys2Proof.Machine
end

