-- ==== Sys2Proof/Machine/Timing.lean ====
section
/-! DEFINITION. The PPU dots and what a step does after its last bus access (40_step.md R167, R168; 60_exceptions.md
R340). `vb` is VBLANK_DOT. -/

namespace Sys2Proof.Machine

/-- The position moves on by one dot (R340). -/
def advanceDot (p : Ppu) : Ppu :=
  if p.dot + 1 = 341 then { p with dot := 0, scanline := (p.scanline + 1) % 262 }
  else { p with dot := p.dot + 1 }

/-- `PpuDot()` (R340): the events of the position it finds, then the advance. -/
def ppuDot (vb : Fin 2) (s : State) : State :=
  if s.ppu.scanline = 241 ∧ s.ppu.dot = vb.val then
    (s.setNmiLatch (s.nmiLatch || s.ppu.ctrl.getLsbD 7)).setPpu (advanceDot { s.ppu with vblank := true })
  else if s.ppu.scanline = 261 ∧ s.ppu.dot = vb.val then
    s.setPpu (advanceDot { s.ppu with vblank := false, spriteZero := false, spriteOverflow := false })
  else s.setPpu (advanceDot s.ppu)

/-- `n` dots, one at a time. -/
def ppuDots (vb : Fin 2) : Nat → State → State
  | 0, s => s
  | n + 1, s => ppuDots vb n (ppuDot vb s)

/-- R167: the step's cycles are counted, and `odd` is their parity. -/
def countCycles (s : State) : State :=
  { s with cycles := s.cycles + s.stepCycles, odd := (s.cycles + s.stepCycles) % 2 == 1 }

/-- R167 and R168: the cycles are counted, then the PPU catches up by three dots a cycle. -/
def finishStep (vb : Fin 2) (s : State) : State := ppuDots vb (3 * s.stepCycles) (countCycles s)

end Sys2Proof.Machine
end

