-- ==== Sys2Proof/Machine/Run.lean ====
section
/-! DEFINITION. The parts of a step (40_step.md R160, R169): the debug gate, then one interrupt entry or one instruction,
then the bookkeeping and the PPU catch-up. -/

namespace Sys2Proof.Machine

/-- What follows the operation of a step that completes; a fault skips it (R170): the cycles, the PPU dots (R167, R168), and a stop that was asked for (R359). -/
def complete (vb : Fin 2) : Host.Outcome State Fault Refusal → Host.Outcome State Fault Refusal
  | .next s => .next (applyStop (finishStep vb s))
  | .fault f => .fault f
  | .refused r => .refused r

/-- Fetch, decode and execute (R161–R166). -/
def executeNext (s : State) : Host.Outcome State Fault Refusal :=
  match fetchInstr s with
  | .ok (i, s') => exec i s'
  | .error f => raiseFault f

/-- `Step(n)` of R169 less its bookkeeping: the NMI, whose latch it clears, beats the IRQ, which I masks, and the IRQ beats
the instruction at PC (R331, R333, R334). -/
def serviceOrExecute (s : State) : Host.Outcome State Fault Refusal :=
  if s.nmiLatch then toOutcome (interruptEntry nmiVector (s.setNmiLatch false))
  else if s.irqLine && !s.flags.i then toOutcome (interruptEntry irqVector s)
  else executeNext s

/-- The step for a given VBLANK_DOT. A faulted or stopped core takes none, and stays as it is (R38, R320, R357). -/
def stepWith (vb : Fin 2) (s : State) : Host.Outcome State Fault Refusal :=
  match s.status with
  | .faulted kind => .fault (.raised kind s)
  | .stopped => .refused .stopped
  | .running =>
    match runGate s with
    | .hold s' => .next s'
    | .pass s' => complete vb (serviceOrExecute s')

end Sys2Proof.Machine
end

