-- ==== Sys2Proof/Machine/Step.lean ====
section
/-! DEFINITION. The step, and the placing of an instruction where the next step fetches it. -/

namespace Sys2Proof.Machine

/-- One step of the machine (R160, R169), at the VBLANK_DOT of `Config`. -/
def step (s : State) : Host.Outcome State Fault Refusal := stepWith Config.vblankDot s

/-- `s` with the instruction of a table word where `step` fetches its next one, and nothing in the way of that fetch: log
entries 3 and 19. -/
def State.withFetchWord (s : State) (nbits w : Nat) : State :=
  readyToFetch (placeBytes (placeablePc s).pc (tableBytes nbits w) (placeablePc s))

end Sys2Proof.Machine
end

