-- ==== Sys2Proof/Safety.lean ====
section
/-! DEFINITION. What claims are stated in terms of: which bus accesses fault, read straight off the address map
(20_memory.md R55, R60, R61, R65, R71, R77, R85, R92–R94, R103–R105; 60_exceptions.md R321), and the invariant of a machine
that was loaded and has run. -/

namespace Sys2Proof.Machine

/-- The fault of a CPU read of an address, if it has one (R321). -/
def readFault (s : State) (addr : Word) : Option FaultKind :=
  let a := addr.toNat
  if a < 0x2000 then none
  else if a < 0x4000 then
    (if a % 8 = 2 ∨ a % 8 = 4 ∨ a % 8 = 7 then none else some (.invalidMmioRead (BitVec.ofNat 16 (0x2000 + a % 8))))
  else if a = 0x4014 then some (.invalidMmioRead 0x4014)
  else if a < 0x4018 then none
  else if 0x8000 ≤ a then none
  else if 0x6000 ≤ a ∧ (s.cart.mapper = .mmc1 ∨ s.cart.nromSram = true) then none
  else some (.unmappedAddress addr)

/-- The first fault among the 256 source reads of an OAM-DMA from page `d` (R175, R323). -/
def dmaFault (s : State) (d : Byte) : Option FaultKind :=
  (List.range 256).findSome? fun i => readFault s (BitVec.ofNat 16 (256 * d.toNat + i))

/-- The fault of a CPU write of `d` to an address, if it has one (R321). -/
def writeFault (s : State) (addr : Word) (d : Byte) : Option FaultKind :=
  let a := addr.toNat
  if a < 0x2000 then none
  else if a < 0x4000 then
    (if a % 8 = 2 then some (.invalidMmioWrite 0x2002)
     else if a % 8 = 7 ∧ s.ppu.v.toNat % 0x4000 < 0x2000 ∧ s.cart.chrPages ≠ 0 then
       some (.unmappedAddress (BitVec.ofNat 16 (s.ppu.v.toNat % 0x4000)))
     else none)
  else if a = 0x4014 then dmaFault s d
  else if a < 0x4018 then none
  else if 0x8000 ≤ a then (if s.cart.mapper = .mmc1 then none else some (.unmappedAddress addr))
  else if 0x6000 ≤ a ∧ (s.cart.mapper = .mmc1 ∨ s.cart.nromSram = true) then none
  else some (.unmappedAddress addr)

/-- The fault a read-modify-write raises before it reads (R105). -/
def rmwFault (s : State) (addr : Word) : Option FaultKind :=
  if s.cart.mapper = .mmc1 ∧ 0x8000 ≤ addr.toNat then some (.unmodelledMmc1Rmw addr) else none

/-- Every memory of the state is in canonical form, within its size. -/
def State.memoriesWf (s : State) : Bool :=
  Memory.wf 2048 s.ram && Memory.wf 8192 s.cartRam && Memory.wf 8192 s.chrRam && Memory.wf 2048 s.ppu.ciram &&
    Memory.wf 32 s.ppu.pal && Memory.wf 256 s.ppu.oam

/-- The counters of the devices are in their ranges: scanline and dot (R340), the controller's pointer (R86), the MMC1
count (R95). -/
def State.countersInRange (s : State) : Bool :=
  decide (s.ppu.scanline < 262) && decide (s.ppu.dot < 341) && decide (s.pad.ptr ≤ 8) && decide (s.mmc1.count < 5)

/-- The invariant of a loaded machine: canonical memories, an accepted cartridge (R90–R92), counters in range, and `odd`
the parity of `cycles` (R37). -/
def State.inv (s : State) : Bool :=
  s.memoriesWf && s.cart.wellFormed && s.countersInRange && (s.odd == (s.cycles % 2 == 1))

/-! The vocabulary of the instruction statements -/

/-- The mnemonics of the opcode table (R124). -/
inductive Mnemonic where
  | lda | ldx | ldy | sta | stx | sty | tax | tay | txa | tya | tsx | txs | pha | php | pla | plp | adc | sbc
  | and | ora | eor | bit | cmp | cpx | cpy | inc | dec | inx | iny | dex | dey | asl | lsr | rol | ror | jmp
  | jsr | rts | rti | brk | bcc | bcs | beq | bmi | bne | bpl | bvc | bvs | clc | sec | cli | sei | cld | sed
  | clv | nop
  deriving DecidableEq, Repr

/-- The mnemonic of an instruction (R124). -/
def mnemonicOf : Instr → Mnemonic
  | .ldaImm _ | .ldaZp _ | .ldaZpX _ | .ldaAbs _ | .ldaAbsX _ | .ldaAbsY _ | .ldaIndX _ | .ldaIndY _ => .lda
  | .ldxImm _ | .ldxZp _ | .ldxZpY _ | .ldxAbs _ | .ldxAbsY _ => .ldx
  | .ldyImm _ | .ldyZp _ | .ldyZpX _ | .ldyAbs _ | .ldyAbsX _ => .ldy
  | .staZp _ | .staZpX _ | .staAbs _ | .staAbsX _ | .staAbsY _ | .staIndX _ | .staIndY _ => .sta
  | .stxZp _ | .stxZpY _ | .stxAbs _ => .stx
  | .styZp _ | .styZpX _ | .styAbs _ => .sty
  | .tax => .tax
  | .tay => .tay
  | .txa => .txa
  | .tya => .tya
  | .tsx => .tsx
  | .txs => .txs
  | .pha => .pha
  | .php => .php
  | .pla => .pla
  | .plp => .plp
  | .adcImm _ | .adcZp _ | .adcZpX _ | .adcAbs _ | .adcAbsX _ | .adcAbsY _ | .adcIndX _ | .adcIndY _ => .adc
  | .sbcImm _ | .sbcZp _ | .sbcZpX _ | .sbcAbs _ | .sbcAbsX _ | .sbcAbsY _ | .sbcIndX _ | .sbcIndY _ => .sbc
  | .andImm _ | .andZp _ | .andZpX _ | .andAbs _ | .andAbsX _ | .andAbsY _ | .andIndX _ | .andIndY _ => .and
  | .oraImm _ | .oraZp _ | .oraZpX _ | .oraAbs _ | .oraAbsX _ | .oraAbsY _ | .oraIndX _ | .oraIndY _ => .ora
  | .eorImm _ | .eorZp _ | .eorZpX _ | .eorAbs _ | .eorAbsX _ | .eorAbsY _ | .eorIndX _ | .eorIndY _ => .eor
  | .bitZp _ | .bitAbs _ => .bit
  | .cmpImm _ | .cmpZp _ | .cmpZpX _ | .cmpAbs _ | .cmpAbsX _ | .cmpAbsY _ | .cmpIndX _ | .cmpIndY _ => .cmp
  | .cpxImm _ | .cpxZp _ | .cpxAbs _ => .cpx
  | .cpyImm _ | .cpyZp _ | .cpyAbs _ => .cpy
  | .incZp _ | .incZpX _ | .incAbs _ | .incAbsX _ => .inc
  | .decZp _ | .decZpX _ | .decAbs _ | .decAbsX _ => .dec
  | .inx => .inx
  | .iny => .iny
  | .dex => .dex
  | .dey => .dey
  | .aslAcc | .aslZp _ | .aslZpX _ | .aslAbs _ | .aslAbsX _ => .asl
  | .lsrAcc | .lsrZp _ | .lsrZpX _ | .lsrAbs _ | .lsrAbsX _ => .lsr
  | .rolAcc | .rolZp _ | .rolZpX _ | .rolAbs _ | .rolAbsX _ => .rol
  | .rorAcc | .rorZp _ | .rorZpX _ | .rorAbs _ | .rorAbsX _ => .ror
  | .jmpAbs _ | .jmpInd _ => .jmp
  | .jsr _ => .jsr
  | .rts => .rts
  | .rti => .rti
  | .brk => .brk
  | .bcc _ => .bcc
  | .bcs _ => .bcs
  | .beq _ => .beq
  | .bmi _ => .bmi
  | .bne _ => .bne
  | .bpl _ => .bpl
  | .bvc _ => .bvc
  | .bvs _ => .bvs
  | .clc => .clc
  | .sec => .sec
  | .cli => .cli
  | .sei => .sei
  | .cld => .cld
  | .sed => .sed
  | .clv => .clv
  | .nop => .nop

/-- The memory forms of an operand: zero page, absolute, indexed and indirect (R133–R135, R137–R139, R141, R142). -/
inductive Place where
  | zp (b1 : Byte)
  | zpX (b1 : Byte)
  | zpY (b1 : Byte)
  | abs (addr16 : Word)
  | absX (addr16 : Word)
  | absY (addr16 : Word)
  | indX (b1 : Byte)
  | indY (b1 : Byte)
  deriving DecidableEq, Repr

/-- The operand forms an instruction that reads M has: an immediate (R132) or a memory form. -/
inductive Form where
  | imm (b1 : Byte)
  | mem (p : Place)
  deriving DecidableEq, Repr

/-- The operand bytes of a memory form, the low byte first (R120, R122). -/
def Place.bytes : Place → List Byte
  | .zp b1 | .zpX b1 | .zpY b1 | .indX b1 | .indY b1 => [b1]
  | .abs addr16 | .absX addr16 | .absY addr16 => [addr16.setWidth 8, (addr16 >>> 8).setWidth 8]

/-- The operand bytes of a form. -/
def Form.bytes : Form → List Byte
  | .imm b1 => [b1]
  | .mem p => p.bytes

/-- The word a pointer in page zero points to: its second byte wraps within page zero (R141, R142). -/
def zeroPageWord (p : Byte) (s : State) : Word := mkWord (s.ram.read p.toNat) (s.ram.read (p + 1).toNat)

/-- The address that an index is added to (R138, R139, R142). -/
def Place.base (s : State) : Place → Word
  | .zp b1 | .zpX b1 | .zpY b1 => b1.setWidth 16
  | .abs addr16 | .absX addr16 | .absY addr16 => addr16
  | .indX b1 => zeroPageWord (b1 + s.x) s
  | .indY b1 => zeroPageWord b1 s

/-- EA, the effective address of a memory form (R133–R135, R137–R139, R141, R142). -/
def Place.ea (s : State) : Place → Word
  | .zp b1 => b1.setWidth 16
  | .zpX b1 => (b1 + s.x).setWidth 16
  | .zpY b1 => (b1 + s.y).setWidth 16
  | .abs addr16 => addr16
  | .absX addr16 => addr16 + s.x.setWidth 16
  | .absY addr16 => addr16 + s.y.setWidth 16
  | .indX b1 => zeroPageWord (b1 + s.x) s
  | .indY b1 => zeroPageWord b1 s + s.y.setWidth 16

/-- `cross` (R138, R139, R142): EA lies in another page than its base. The zero-page forms never cross (R134, R135). -/
def Place.crosses (s : State) (p : Place) : Bool :=
  match p with
  | .absX _ | .absY _ | .indY _ => (p.base s &&& 0xFF00) != (p.ea s &&& 0xFF00)
  | _ => false

/-- `cross` of a form. -/
def Form.crosses (s : State) : Form → Bool
  | .imm _ => false
  | .mem p => p.crosses s

/-- `opnd.read()` (R163): the constant, or a bus read of EA with its side effects. -/
def Form.read (s : State) : Form → Result (Byte × State)
  | .imm b1 => .ok (b1, s)
  | .mem p => memRead (p.ea s) s

/-- The fault `opnd.read()` raises, if any (R322). -/
def Form.readFault (s : State) : Form → Option FaultKind
  | .imm _ => none
  | .mem p => Machine.readFault s (p.ea s)

/-- A row of the opcode table (R124): the instruction, its opcode byte, its base cycles and its page-cross mark. -/
structure Row where
  instr : Instr
  opcode : Byte
  cycles : Nat
  pageCycle : Bool
  deriving DecidableEq, Repr

/-- The cycles of a row whose page-cross penalty is decided by `cross` (R143, R166). -/
def Row.cost (r : Row) (cross : Bool) : Nat := r.cycles + (if r.pageCycle && cross then 1 else 0)

/-- The cycles that a bus write adds to the step: the OAM-DMA stall at $4014, else none (R61, R166, R176). -/
def stall (s : State) (addr : Word) : Nat := if addr = 0x4014 then (if s.odd then 514 else 513) else 0

/-- The rows of LDA (R124). -/
def rowsLda : Form → Option Row
  | .imm b1 => some ⟨.ldaImm b1, 0xA9, 2, false⟩
  | .mem (.zp b1) => some ⟨.ldaZp b1, 0xA5, 3, false⟩
  | .mem (.zpX b1) => some ⟨.ldaZpX b1, 0xB5, 4, false⟩
  | .mem (.abs addr16) => some ⟨.ldaAbs addr16, 0xAD, 4, false⟩
  | .mem (.absX addr16) => some ⟨.ldaAbsX addr16, 0xBD, 4, true⟩
  | .mem (.absY addr16) => some ⟨.ldaAbsY addr16, 0xB9, 4, true⟩
  | .mem (.indX b1) => some ⟨.ldaIndX b1, 0xA1, 6, false⟩
  | .mem (.indY b1) => some ⟨.ldaIndY b1, 0xB1, 5, true⟩
  | _ => none

/-- The rows of LDX (R124). -/
def rowsLdx : Form → Option Row
  | .imm b1 => some ⟨.ldxImm b1, 0xA2, 2, false⟩
  | .mem (.zp b1) => some ⟨.ldxZp b1, 0xA6, 3, false⟩
  | .mem (.zpY b1) => some ⟨.ldxZpY b1, 0xB6, 4, false⟩
  | .mem (.abs addr16) => some ⟨.ldxAbs addr16, 0xAE, 4, false⟩
  | .mem (.absY addr16) => some ⟨.ldxAbsY addr16, 0xBE, 4, true⟩
  | _ => none

/-- The rows of LDY (R124). -/
def rowsLdy : Form → Option Row
  | .imm b1 => some ⟨.ldyImm b1, 0xA0, 2, false⟩
  | .mem (.zp b1) => some ⟨.ldyZp b1, 0xA4, 3, false⟩
  | .mem (.zpX b1) => some ⟨.ldyZpX b1, 0xB4, 4, false⟩
  | .mem (.abs addr16) => some ⟨.ldyAbs addr16, 0xAC, 4, false⟩
  | .mem (.absX addr16) => some ⟨.ldyAbsX addr16, 0xBC, 4, true⟩
  | _ => none

/-- The rows of ADC (R124). -/
def rowsAdc : Form → Option Row
  | .imm b1 => some ⟨.adcImm b1, 0x69, 2, false⟩
  | .mem (.zp b1) => some ⟨.adcZp b1, 0x65, 3, false⟩
  | .mem (.zpX b1) => some ⟨.adcZpX b1, 0x75, 4, false⟩
  | .mem (.abs addr16) => some ⟨.adcAbs addr16, 0x6D, 4, false⟩
  | .mem (.absX addr16) => some ⟨.adcAbsX addr16, 0x7D, 4, true⟩
  | .mem (.absY addr16) => some ⟨.adcAbsY addr16, 0x79, 4, true⟩
  | .mem (.indX b1) => some ⟨.adcIndX b1, 0x61, 6, false⟩
  | .mem (.indY b1) => some ⟨.adcIndY b1, 0x71, 5, true⟩
  | _ => none

/-- The rows of SBC (R124). -/
def rowsSbc : Form → Option Row
  | .imm b1 => some ⟨.sbcImm b1, 0xE9, 2, false⟩
  | .mem (.zp b1) => some ⟨.sbcZp b1, 0xE5, 3, false⟩
  | .mem (.zpX b1) => some ⟨.sbcZpX b1, 0xF5, 4, false⟩
  | .mem (.abs addr16) => some ⟨.sbcAbs addr16, 0xED, 4, false⟩
  | .mem (.absX addr16) => some ⟨.sbcAbsX addr16, 0xFD, 4, true⟩
  | .mem (.absY addr16) => some ⟨.sbcAbsY addr16, 0xF9, 4, true⟩
  | .mem (.indX b1) => some ⟨.sbcIndX b1, 0xE1, 6, false⟩
  | .mem (.indY b1) => some ⟨.sbcIndY b1, 0xF1, 5, true⟩
  | _ => none

/-- The rows of AND (R124). -/
def rowsAnd : Form → Option Row
  | .imm b1 => some ⟨.andImm b1, 0x29, 2, false⟩
  | .mem (.zp b1) => some ⟨.andZp b1, 0x25, 3, false⟩
  | .mem (.zpX b1) => some ⟨.andZpX b1, 0x35, 4, false⟩
  | .mem (.abs addr16) => some ⟨.andAbs addr16, 0x2D, 4, false⟩
  | .mem (.absX addr16) => some ⟨.andAbsX addr16, 0x3D, 4, true⟩
  | .mem (.absY addr16) => some ⟨.andAbsY addr16, 0x39, 4, true⟩
  | .mem (.indX b1) => some ⟨.andIndX b1, 0x21, 6, false⟩
  | .mem (.indY b1) => some ⟨.andIndY b1, 0x31, 5, true⟩
  | _ => none

/-- The rows of ORA (R124). -/
def rowsOra : Form → Option Row
  | .imm b1 => some ⟨.oraImm b1, 0x09, 2, false⟩
  | .mem (.zp b1) => some ⟨.oraZp b1, 0x05, 3, false⟩
  | .mem (.zpX b1) => some ⟨.oraZpX b1, 0x15, 4, false⟩
  | .mem (.abs addr16) => some ⟨.oraAbs addr16, 0x0D, 4, false⟩
  | .mem (.absX addr16) => some ⟨.oraAbsX addr16, 0x1D, 4, true⟩
  | .mem (.absY addr16) => some ⟨.oraAbsY addr16, 0x19, 4, true⟩
  | .mem (.indX b1) => some ⟨.oraIndX b1, 0x01, 6, false⟩
  | .mem (.indY b1) => some ⟨.oraIndY b1, 0x11, 5, true⟩
  | _ => none

/-- The rows of EOR (R124). -/
def rowsEor : Form → Option Row
  | .imm b1 => some ⟨.eorImm b1, 0x49, 2, false⟩
  | .mem (.zp b1) => some ⟨.eorZp b1, 0x45, 3, false⟩
  | .mem (.zpX b1) => some ⟨.eorZpX b1, 0x55, 4, false⟩
  | .mem (.abs addr16) => some ⟨.eorAbs addr16, 0x4D, 4, false⟩
  | .mem (.absX addr16) => some ⟨.eorAbsX addr16, 0x5D, 4, true⟩
  | .mem (.absY addr16) => some ⟨.eorAbsY addr16, 0x59, 4, true⟩
  | .mem (.indX b1) => some ⟨.eorIndX b1, 0x41, 6, false⟩
  | .mem (.indY b1) => some ⟨.eorIndY b1, 0x51, 5, true⟩
  | _ => none

/-- The rows of BIT (R124). -/
def rowsBit : Form → Option Row
  | .mem (.zp b1) => some ⟨.bitZp b1, 0x24, 3, false⟩
  | .mem (.abs addr16) => some ⟨.bitAbs addr16, 0x2C, 4, false⟩
  | _ => none

/-- The rows of CMP (R124). -/
def rowsCmp : Form → Option Row
  | .imm b1 => some ⟨.cmpImm b1, 0xC9, 2, false⟩
  | .mem (.zp b1) => some ⟨.cmpZp b1, 0xC5, 3, false⟩
  | .mem (.zpX b1) => some ⟨.cmpZpX b1, 0xD5, 4, false⟩
  | .mem (.abs addr16) => some ⟨.cmpAbs addr16, 0xCD, 4, false⟩
  | .mem (.absX addr16) => some ⟨.cmpAbsX addr16, 0xDD, 4, true⟩
  | .mem (.absY addr16) => some ⟨.cmpAbsY addr16, 0xD9, 4, true⟩
  | .mem (.indX b1) => some ⟨.cmpIndX b1, 0xC1, 6, false⟩
  | .mem (.indY b1) => some ⟨.cmpIndY b1, 0xD1, 5, true⟩
  | _ => none

/-- The rows of CPX (R124). -/
def rowsCpx : Form → Option Row
  | .imm b1 => some ⟨.cpxImm b1, 0xE0, 2, false⟩
  | .mem (.zp b1) => some ⟨.cpxZp b1, 0xE4, 3, false⟩
  | .mem (.abs addr16) => some ⟨.cpxAbs addr16, 0xEC, 4, false⟩
  | _ => none

/-- The rows of CPY (R124). -/
def rowsCpy : Form → Option Row
  | .imm b1 => some ⟨.cpyImm b1, 0xC0, 2, false⟩
  | .mem (.zp b1) => some ⟨.cpyZp b1, 0xC4, 3, false⟩
  | .mem (.abs addr16) => some ⟨.cpyAbs addr16, 0xCC, 4, false⟩
  | _ => none

/-- The rows of STA (R124). -/
def rowsSta : Place → Option Row
  | .zp b1 => some ⟨.staZp b1, 0x85, 3, false⟩
  | .zpX b1 => some ⟨.staZpX b1, 0x95, 4, false⟩
  | .abs addr16 => some ⟨.staAbs addr16, 0x8D, 4, false⟩
  | .absX addr16 => some ⟨.staAbsX addr16, 0x9D, 5, false⟩
  | .absY addr16 => some ⟨.staAbsY addr16, 0x99, 5, false⟩
  | .indX b1 => some ⟨.staIndX b1, 0x81, 6, false⟩
  | .indY b1 => some ⟨.staIndY b1, 0x91, 6, false⟩
  | _ => none

/-- The rows of STX (R124). -/
def rowsStx : Place → Option Row
  | .zp b1 => some ⟨.stxZp b1, 0x86, 3, false⟩
  | .zpY b1 => some ⟨.stxZpY b1, 0x96, 4, false⟩
  | .abs addr16 => some ⟨.stxAbs addr16, 0x8E, 4, false⟩
  | _ => none

/-- The rows of STY (R124). -/
def rowsSty : Place → Option Row
  | .zp b1 => some ⟨.styZp b1, 0x84, 3, false⟩
  | .zpX b1 => some ⟨.styZpX b1, 0x94, 4, false⟩
  | .abs addr16 => some ⟨.styAbs addr16, 0x8C, 4, false⟩
  | _ => none

/-- The rows of INC (R124). -/
def rowsInc : Place → Option Row
  | .zp b1 => some ⟨.incZp b1, 0xE6, 5, false⟩
  | .zpX b1 => some ⟨.incZpX b1, 0xF6, 6, false⟩
  | .abs addr16 => some ⟨.incAbs addr16, 0xEE, 6, false⟩
  | .absX addr16 => some ⟨.incAbsX addr16, 0xFE, 7, false⟩
  | _ => none

/-- The rows of DEC (R124). -/
def rowsDec : Place → Option Row
  | .zp b1 => some ⟨.decZp b1, 0xC6, 5, false⟩
  | .zpX b1 => some ⟨.decZpX b1, 0xD6, 6, false⟩
  | .abs addr16 => some ⟨.decAbs addr16, 0xCE, 6, false⟩
  | .absX addr16 => some ⟨.decAbsX addr16, 0xDE, 7, false⟩
  | _ => none

/-- The rows of ASL (R124). The accumulator form apart. -/
def rowsAsl : Place → Option Row
  | .zp b1 => some ⟨.aslZp b1, 0x06, 5, false⟩
  | .zpX b1 => some ⟨.aslZpX b1, 0x16, 6, false⟩
  | .abs addr16 => some ⟨.aslAbs addr16, 0x0E, 6, false⟩
  | .absX addr16 => some ⟨.aslAbsX addr16, 0x1E, 7, false⟩
  | _ => none

/-- The rows of LSR (R124). The accumulator form apart. -/
def rowsLsr : Place → Option Row
  | .zp b1 => some ⟨.lsrZp b1, 0x46, 5, false⟩
  | .zpX b1 => some ⟨.lsrZpX b1, 0x56, 6, false⟩
  | .abs addr16 => some ⟨.lsrAbs addr16, 0x4E, 6, false⟩
  | .absX addr16 => some ⟨.lsrAbsX addr16, 0x5E, 7, false⟩
  | _ => none

/-- The rows of ROL (R124). The accumulator form apart. -/
def rowsRol : Place → Option Row
  | .zp b1 => some ⟨.rolZp b1, 0x26, 5, false⟩
  | .zpX b1 => some ⟨.rolZpX b1, 0x36, 6, false⟩
  | .abs addr16 => some ⟨.rolAbs addr16, 0x2E, 6, false⟩
  | .absX addr16 => some ⟨.rolAbsX addr16, 0x3E, 7, false⟩
  | _ => none

/-- The rows of ROR (R124). The accumulator form apart. -/
def rowsRor : Place → Option Row
  | .zp b1 => some ⟨.rorZp b1, 0x66, 5, false⟩
  | .zpX b1 => some ⟨.rorZpX b1, 0x76, 6, false⟩
  | .abs addr16 => some ⟨.rorAbs addr16, 0x6E, 6, false⟩
  | .absX addr16 => some ⟨.rorAbsX addr16, 0x7E, 7, false⟩
  | _ => none

/-- A fault of a step (R320, R323), at the state `s` that the faulting access found. What PC, the registers and the
BreakState's PC are there is DEDUCED, log entry 11. -/
def faultAt (kind : FaultKind) (s : State) : Host.Outcome State Fault Refusal := .fault (.raised kind (enterFaulted kind s))

/-- The instructions whose operand is read, and what they leave (R200, R201, R230): for every form of the table, the operand's
fault where it has one, with nothing but PC and the cycle count moved on, and else a next state, which is what `effect` makes
of the byte read and the state after the read, with PC past the instruction and the cycles of the row. -/
def ReadsOperand (rows : Form → Option Row) (effect : Byte → State → State) : Prop :=
  ∀ (f : Form) (r : Row) (s : State), rows f = some r →
    encode r.instr = r.opcode :: f.bytes ∧
    match f.readFault s with
    | some e => exec r.instr s = faultAt e
        { s with pc := s.pc + BitVec.ofNat 16 (1 + f.bytes.length), stepCycles := r.cost (f.crosses s) }
    | none => ∃ m s1, f.read s = .ok (m, s1) ∧
        exec r.instr s = .next
          { effect m s1 with
            pc := s.pc + BitVec.ofNat 16 (1 + f.bytes.length), stepCycles := r.cost (f.crosses s) }

/-- The stores (R204–R206): for every form of the table, the fault of the write where it has one, at the state that the bus
write leaves with PC past the instruction, and else a next state: the one the bus write of the register at EA leaves, with PC
past the instruction and the cycles of the row and of the write. -/
def StoresRegister (rows : Place → Option Row) (value : State → Byte) : Prop :=
  ∀ (p : Place) (r : Row) (s : State), rows p = some r →
    encode r.instr = r.opcode :: p.bytes ∧
    match writeFault s (p.ea s) (value s) with
    | some e => ∃ s1, memWrite (p.ea s) (value s) s = .error (.raised e s1) ∧
        exec r.instr s = faultAt e
          { s1 with pc := s.pc + BitVec.ofNat 16 (1 + p.bytes.length), stepCycles := r.cost (p.crosses s) }
    | none => ∃ s1, memWrite (p.ea s) (value s) s = .ok (stall s (p.ea s), s1) ∧
        exec r.instr s = .next
          { s1 with
            pc := s.pc + BitVec.ofNat 16 (1 + p.bytes.length),
            stepCycles := r.cost (p.crosses s) + stall s (p.ea s) }

/-- The read-modify-writes on memory (R165, R230): for every form of the table, the fault of the MMC1 check, of the read or of
the write, the first of them there is (R323), a fault of the write with the read's side effects and the new C in place; and
else a next state: one bus read of EA, one bus write of r to EA, N and Z from r and C as the operation says, PC past the
instruction, the cycles of the row. `op` answers r and the new C from M and the old C. -/
def ReadModifyWrites (rows : Place → Option Row) (op : Byte → Bool → Byte × Bool) : Prop :=
  ∀ (p : Place) (r : Row) (s : State), rows p = some r →
    encode r.instr = r.opcode :: p.bytes ∧
    let pc := s.pc + BitVec.ofNat 16 (1 + p.bytes.length)
    let cost := r.cost (p.crosses s)
    match rmwFault s (p.ea s), readFault s (p.ea s) with
    | some e, _ => exec r.instr s = faultAt e { s with pc := pc, stepCycles := cost }
    | none, some e => exec r.instr s = faultAt e { s with pc := pc, stepCycles := cost }
    | none, none => ∃ m s1, memRead (p.ea s) s = .ok (m, s1) ∧
        match writeFault s1 (p.ea s) (op m s.flags.c).1 with
        | some e => exec r.instr s = faultAt e
            { s1 with flags := { s.flags with c := (op m s.flags.c).2 }, pc := pc, stepCycles := cost }
        | none => ∃ s2, memWrite (p.ea s) (op m s.flags.c).1 s1 = .ok (0, s2) ∧
            exec r.instr s = .next
              { s2 with
                flags := { s.flags with
                  n := (op m s.flags.c).1.getLsbD 7, z := decide ((op m s.flags.c).1 = 0), c := (op m s.flags.c).2 },
                pc := pc, stepCycles := cost }

/-- The word at two addresses, the low byte at the first, as an observation sees it (R50, R62). -/
def observeWord (addr : Word) (s : State) : Word := mkWord (memObserve addr s) (memObserve (addr + 1) s)

/-- The RAM after the three pushes of an exception: PCH, PCL, P (R28, R336). -/
def exceptionFrame (returnPc : Word) (status : Byte) (s : State) : Memory :=
  ((s.ram.write (0x100 + s.sp.toNat) ((returnPc >>> 8).setWidth 8)).write (0x100 + (s.sp - 1).toNat)
    (returnPc.setWidth 8)).write (0x100 + (s.sp - 2).toNat) status

/-- Two CPU addresses select the same byte of storage: they are equal, or mirrors of one RAM byte (R63). -/
def sameCell (a b : Word) : Bool :=
  a == b || (decide (a.toNat < 0x2000) && decide (b.toNat < 0x2000) && a.toNat % 2048 == b.toNat % 2048)

/-- An address at which a device answers, not storage: the PPU ports and the controller (R64, R86). -/
def isPort (a : Word) : Bool := (decide (0x2000 ≤ a.toNat) && decide (a.toNat < 0x4000)) || a == 0x4016

/-- A read of this address can have side effects (R53): PPUSTATUS, PPUDATA, the controller. -/
def readHasSideEffect (a : Word) : Bool :=
  (decide (0x2000 ≤ a.toNat) && decide (a.toNat < 0x4000) && (a.toNat % 8 == 2 || a.toNat % 8 == 7)) || a == 0x4016

/-- The bus reads from an address on, low address first, answer these bytes one after the other, each read in the state the one
before it left, and leave `t` (R53, R161, R162). -/
def BusReads : Word → List Byte → State → State → Prop
  | _, [], s, t => t = s
  | addr, b :: rest, s, t => ∃ s1, memRead addr s = .ok (b, s1) ∧ BusReads (addr + 1) rest s1 t

/-- The position of the PPU as the number of dots since (0, 0) (R340). -/
def Ppu.position (p : Ppu) : Nat := 341 * p.scanline + p.dot

/-- The state with the stored B flag 0: what is left when B is not looked at. -/
def State.eraseB (s : State) : State := { s with flags := { s.flags with b := false } }

/-- The state with the D flag 0: what is left when D is not looked at. -/
def State.eraseD (s : State) : State := { s with flags := { s.flags with d := false } }

/-- The state without the debug gate: what is left when the gate is not looked at. -/
def State.eraseGate (s : State) : State := { s with gate := Gate.reset .run [] }

/-- An outcome whose state, be it the next one or the one a fault leaves, is looked at through `f`. -/
def viewOutcome (f : State → State) : Host.Outcome State Fault Refusal → Host.Outcome State Fault Refusal
  | .next s => .next (f s)
  | .fault (.raised kind s) => .fault (.raised kind (f s))
  | .refused r => .refused r

/-- The 105 illegal opcode bytes, as the rule lists them (R125). -/
def illegalOpcodes : List Byte :=
  [0x02, 0x03, 0x04, 0x07, 0x0B, 0x0C, 0x0F, 0x12, 0x13, 0x14, 0x17, 0x1A, 0x1B, 0x1C, 0x1F, 0x22, 0x23, 0x27, 0x2B, 0x2F,
    0x32, 0x33, 0x34, 0x37, 0x3A, 0x3B, 0x3C, 0x3F, 0x42, 0x43, 0x44, 0x47, 0x4B, 0x4F, 0x52, 0x53, 0x54, 0x57, 0x5A, 0x5B] ++
  [0x5C, 0x5F, 0x62, 0x63, 0x64, 0x67, 0x6B, 0x6F, 0x72, 0x73, 0x74, 0x77, 0x7A, 0x7B, 0x7C, 0x7F, 0x80, 0x82, 0x83, 0x87,
    0x89, 0x8B, 0x8F, 0x92, 0x93, 0x97, 0x9B, 0x9C, 0x9E, 0x9F, 0xA3, 0xA7, 0xAB, 0xAF, 0xB2, 0xB3, 0xB7, 0xBB, 0xBF, 0xC2] ++
  [0xC3, 0xC7, 0xCB, 0xCF, 0xD2, 0xD3, 0xD4, 0xD7, 0xDA, 0xDB, 0xDC, 0xDF, 0xE2, 0xE3, 0xE7, 0xEB, 0xEF, 0xF2, 0xF3, 0xF4,
    0xF7, 0xFA, 0xFB, 0xFC, 0xFF]

/-- The next step runs: the core is Running (R38) and the debug gate does not break here (R355). -/
def State.goes (s : State) : Bool := s.status == .running && !breaksHere s

/-- The state after a gate that did not break: the first gate is behind it (R355). -/
def State.passGate (s : State) : State := { s with gate := { s.gate with first := false } }

/-- An IRQ is serviced at the next step unless an NMI is: the level is 1 and I is 0 (R333). -/
def State.irqPending (s : State) : Bool := s.irqLine && !s.flags.i

/-- The address is that of PPU port `k`, or a mirror of it (R64). -/
def isPpuPort (a : Word) (k : Nat) : Prop := 0x2000 ≤ a.toNat ∧ a.toNat < 0x4000 ∧ a.toNat % 8 = k

/-- A conditional branch (R136, R270): its encoding, and in every state a next state: taken, PC at the target and 1 or, across
a page, 2 cycles more; else PC past the branch. -/
def Branches (mk : Byte → Instr) (opcode : Byte) (cond : Flags → Bool) : Prop :=
  ∀ (b1 : Byte) (s : State),
    encode (mk b1) = [opcode, b1] ∧
    exec (mk b1) s = .next
      (if cond s.flags then
        { s with
          pc := s.pc + 2 + b1.signExtend 16,
          stepCycles := 2 + (if (s.pc + 2) &&& 0xFF00 = (s.pc + 2 + b1.signExtend 16) &&& 0xFF00 then 1 else 2) }
      else { s with pc := s.pc + 2, stepCycles := 2 })

/-- An implied or accumulator instruction of 2 cycles with no fault (R130, R131, R300): its encoding, and in every state a next
state, which is what `effect` makes of the state, with PC past the one byte. -/
def ActsAlone (i : Instr) (opcode : Byte) (effect : State → State) : Prop :=
  ∀ s : State, encode i = [opcode] ∧ exec i s = .next { effect s with pc := s.pc + 1, stepCycles := 2 }

/-- N and Z from a byte (R9, SetNZ), every other flag as it was. -/
def nzFrom (v : Byte) (f : Flags) : Flags := { f with n := v.getLsbD 7, z := decide (v = 0) }

/-- Where a PPU address stores its byte (R80). -/
inductive PpuSlot where
  | chr (index : Nat)
  | nametable (index : Nat)
  | palette (index : Nat)
  deriving DecidableEq, Repr

/-- The physical page of a logical nametable: the map of R81, row by row. -/
def nametableMap : Mirroring → List Nat
  | .horizontal => [0, 0, 1, 1]
  | .vertical => [0, 1, 0, 1]
  | .singleLower => [0, 0, 0, 0]
  | .singleUpper => [1, 1, 1, 1]

/-- The byte of the cartridge's CHR memory at a PPU address below $2000 (R92, R103). -/
def chrIndex (s : State) (a : Nat) : Nat :=
  match s.cart.mapper with
  | .nrom => a
  | .mmc1 =>
    let k := if s.cart.chrPages = 0 then 2 else 2 * s.cart.chrPages
    if s.mmc1.control.getLsbD 4 = false then 4096 * (((s.mmc1.chr0 &&& 0x1E).toNat + a / 4096) % k) + a % 4096
    else if a < 0x1000 then 4096 * (s.mmc1.chr0.toNat % k) + a
    else 4096 * (s.mmc1.chr1.toNat % k) + (a - 0x1000)

/-- The place of a PPU address (R80–R82). -/
def ppuSlot (s : State) (addr : Nat) : PpuSlot :=
  let a := addr % 0x4000
  if a < 0x2000 then .chr (chrIndex s a)
  else if a < 0x3F00 then
    let n := (a - 0x2000) % 0x1000
    .nametable ((nametableMap (mirroring s)).getD (n / 0x400) 0 * 0x400 + n % 0x400)
  else if a % 32 ∈ [0x10, 0x14, 0x18, 0x1C] then .palette (a % 32 - 0x10)
  else .palette (a % 32)

/-- The PRG page at a CPU address from $8000 on, under MMC1 (R100–R102), of `pages` pages. -/
def mmc1Page (m : Mmc1) (pages : Nat) (a : Nat) : Nat :=
  let upper := decide (0xC000 ≤ a)
  let sw := m.prg.toNat % 16 % pages
  if m.booted && !m.control.getLsbD 2 then (m.prg.toNat % 16 / 2 * 2 + (if upper then 1 else 0)) % pages
  else if m.booted && !m.control.getLsbD 3 then (if upper then sw else 0)
  else (if upper then pages - 1 else sw)

/-- The instructions that store to memory: the stores, the read-modify-writes on memory and the pushes (R28, R165, R204). -/
def storesToMemory : Instr → Bool
  | .aslAcc | .lsrAcc | .rolAcc | .rorAcc => false
  | i => decide (mnemonicOf i ∈ [.sta, .stx, .sty, .inc, .dec, .asl, .lsr, .rol, .ror, .pha, .php, .jsr, .brk])

/-- The rows of every instruction that stores at an EA (R124). -/
def storingRows : List (Place → Option Row) :=
  [rowsSta, rowsStx, rowsSty, rowsInc, rowsDec, rowsAsl, rowsLsr, rowsRol, rowsRor]


end Sys2Proof.Machine
end

