-- ==== Sys2Proof/Certificates/Slice0/Obligations.lean ====
section
/-! DEFINITION. The statements for the provers, one `Prop` each, from the numbered rules of spec/. A next state is written as
the whole state, so that what an equation does not name is unchanged: such an equation is the instruction's frame as well.
Opcode bytes, base cycles and page marks are the rows of each instruction's own rule; the table they come from is the spec's
own decision D37. -/

open Sys2Proof Sys2Proof.Machine

/-! Reset -/

/-- R370–R376: a load of an accepted cartridge, for every value of the open parameters. The shape of the load, the zeros of
the PPU and of the controller and the MMC1's first state are the spec's own decisions D7–D9, D12, D25 and D29. -/
def Obligations.LoadedState : Prop :=
  ∀ (p : LoadParams) (c : Cart), p.image.toCart = .ok c →
    ∃ t, load p = .next t ∧
      t.pc = observeWord 0xFFFC t ∧
      t.a = p.regs.a ∧ t.x = p.regs.x ∧ t.y = p.regs.y ∧ t.sp = p.regs.sp ∧ t.flags = p.regs.flags ∧
      t.ram = p.mem.ram ∧ t.cartRam = p.mem.cartRam ∧ t.chrRam = p.mem.chrRam ∧ t.ppu.ciram = p.mem.ciram ∧
      t.ppu.pal = p.mem.pal ∧ t.ppu.oam = p.mem.oam ∧
      t.cart = c ∧ c.prg = p.image.prg ∧ c.chr = p.image.chr ∧
      t.ppu.ctrl = 0 ∧ t.ppu.mask = 0 ∧ t.ppu.vblank = false ∧ t.ppu.spriteZero = false ∧ t.ppu.spriteOverflow = false ∧
      t.ppu.oamaddr = 0 ∧ t.ppu.w = false ∧ t.ppu.scrollX = 0 ∧ t.ppu.scrollY = 0 ∧ t.ppu.tHi = 0 ∧ t.ppu.v = 0 ∧
      t.ppu.buf = 0 ∧ t.ppu.scanline = p.scanline ∧ t.ppu.dot = p.dot ∧
      t.mmc1 = { shift := 0, count := 0, control := 0x0C, chr0 := 0, chr1 := 0, prg := 0, booted := false } ∧
      t.nmiLatch = false ∧ t.odd = false ∧ t.cycles = 0 ∧ t.pad.ptr = 0 ∧ t.pad.strobe = false ∧ t.status = .running ∧
      t.gate.first = true ∧ t.gate.stepping = false ∧ t.gate.breaks = p.breaks ∧ t.gate.mode = p.mode

/-- R7, R81, R90–R92: exactly the images that have no CART value are refused, whatever the rest of the parameters. The size
limits and the refusal of four-screen are the spec's own decisions D27 and D35; that the images are bytes of their pages is
log entry 16. -/
def Obligations.RefusedCartridges : Prop :=
  ∀ p : LoadParams, Memory.wf (16384 * p.image.prgPages) p.image.prg = true →
    Memory.wf (8192 * p.image.chrPages) p.image.chr = true →
    ((∃ r, load p = .refused (.cartridge r)) ↔
      (p.image.mapperNumber ≠ 0 ∧ p.image.mapperNumber ≠ 1) ∨ p.image.fourScreen = true ∨ p.image.prgPages = 0 ∨
        (p.image.mapperNumber = 0 ∧ (2 < p.image.prgPages ∨ 1 < p.image.chrPages))) ∧
    ((∃ t, load p = .next t) ∨ ∃ r, load p = .refused (.cartridge r))

/-- R374, R375 and the register half of R373: what the spec gives for the state after reset. What it leaves open and log
entries 1–4 and 7–9 choose is not stated here. The zeros of the PPU, the controller, `odd` and the MMC1's first state are the
spec's own decisions D4, D9, D12, D25 and D29. -/
def Obligations.ResetState : Prop :=
  State.reset.pc = observeWord 0xFFFC State.reset ∧
  State.reset.nmiLatch = false ∧ State.reset.odd = false ∧ State.reset.cycles = 0 ∧ State.reset.status = .running ∧
  State.reset.pad.ptr = 0 ∧ State.reset.pad.strobe = false ∧
  State.reset.gate.first = true ∧ State.reset.gate.stepping = false ∧
  State.reset.mmc1 = { shift := 0, count := 0, control := 0x0C, chr0 := 0, chr1 := 0, prg := 0, booted := false } ∧
  State.reset.ppu.ctrl = 0 ∧ State.reset.ppu.mask = 0 ∧ State.reset.ppu.vblank = false ∧
  State.reset.ppu.spriteZero = false ∧ State.reset.ppu.spriteOverflow = false ∧ State.reset.ppu.oamaddr = 0 ∧
  State.reset.ppu.w = false ∧ State.reset.ppu.scrollX = 0 ∧ State.reset.ppu.scrollY = 0 ∧ State.reset.ppu.tHi = 0 ∧
  State.reset.ppu.v = 0 ∧ State.reset.ppu.buf = 0

/-- The state after reset has the invariant. The invariant is the model's own (log entry 20), and reset takes the values of
log entries 1–4 and 6–12. -/
def Obligations.ResetHasInvariant : Prop := State.reset.inv = true

/-- R370: every load of an accepted cartridge with memory contents that are bytes of their memories, and a position of the PPU
(R340), has the invariant. The invariant is the model's own, log entry 20. -/
def Obligations.LoadHasInvariant : Prop :=
  ∀ (p : LoadParams) (c : Cart), p.image.toCart = .ok c → p.mem.wf = true → p.scanline < 262 → p.dot < 341 →
    ∃ t, load p = .next t ∧ t.inv = true

/-- The invariant (canonical memories, an accepted cartridge, counters in their ranges, `odd` the parity of `cycles`) is kept
by every step, from every state that has it, and holds of the state a faulting step leaves. The invariant is the model's own,
log entry 20. -/
def Obligations.StepKeepsInvariant : Prop :=
  ∀ s t : State, s.inv = true → (step s = .next t ∨ ∃ kind, step s = .fault (.raised kind t)) → t.inv = true

/-! Encoding -/

/-- Decoding the bytes of an instruction gives it back, with every operand at every value, and leaves the rest. The bytes are
those of the opcode table, the spec's own decision D37. -/
def Obligations.DecodeEncode : Prop :=
  ∀ (i : Instr) (rest : List Byte), i.wellFormed = true → decode (encode i ++ rest) = .ok (i, rest)

/-- What the decoder accepts is the encoding of what it answers, and nothing else: 1, 2 or 3 bytes (R120). The bytes are those
of the opcode table, the spec's own decision D37. -/
def Obligations.DecodeAcceptsOnlyEncodings : Prop :=
  ∀ (bytes : List Byte) (i : Instr) (rest : List Byte), decode bytes = .ok (i, rest) →
    bytes = encode i ++ rest ∧ 1 ≤ (encode i).length ∧ (encode i).length ≤ 3

/-- R125: the 105 illegal bytes decode to nothing, a step that fetches one faults with {pc0, op} after that one read, and
every other byte is legal. The bytes are those the table of decision D37 leaves over, and the fault is decision D41. What the
fault leaves is decision D15, and PC and the BreakState's PC in debug mode are the model's reading, log entry 11. -/
def Obligations.IllegalOpcodes : Prop :=
  illegalOpcodes.length = 105 ∧
  (∀ op ∈ illegalOpcodes,
    (∀ rest, decode (op :: rest) = .error (.illegal op)) ∧
    ∀ s s1 : State, s.goes = true → s.nmiLatch = false → s.irqPending = false → memRead s.pc s = .ok (op, s1) →
      step s = faultAt (.unknownOpcode s.pc op) s1.passGate) ∧
  ∀ op ∉ illegalOpcodes, ∀ b1 b2 : Byte, ∃ i rest, decode [op, b1, b2] = .ok (i, rest)

/-- R120, R122, R124: words written out from the opcode table decode to their instructions; one or more of each family. The
table is the spec's own decision D37. -/
def Obligations.DecodedWords : Prop :=
  decode [0xA9, 0x42] = .ok (.ldaImm 0x42, []) ∧
  decode [0x8D, 0x00, 0x02] = .ok (.staAbs 0x0200, []) ∧
  decode [0x7D, 0x34, 0x12] = .ok (.adcAbsX 0x1234, []) ∧
  decode [0xB1, 0x40, 0xEA] = .ok (.ldaIndY 0x40, [0xEA]) ∧
  decode [0x6C, 0xFF, 0x10] = .ok (.jmpInd 0x10FF, []) ∧
  decode [0x20, 0x34, 0x12] = .ok (.jsr 0x1234, []) ∧
  decode [0xD0, 0xF9] = .ok (.bne 0xF9, []) ∧
  decode [0x00, 0xEA] = .ok (.brk, [0xEA]) ∧
  decode [0x96, 0x10] = .ok (.stxZpY 0x10, []) ∧
  decode [0x0A] = .ok (.aslAcc, []) ∧
  decode [0x78] = .ok (.sei, []) ∧
  decode [0x02, 0x00, 0x00] = .error (.illegal 0x02) ∧
  decode [0xAD, 0x34] = .error (.truncated 0xAD)

/-! The step -/

/-- R53, R160–R169, R322, R323: where neither the gate nor an interrupt comes first and the bus reads at PC, low address
first, answer the bytes of an instruction, a step is the meaning of that instruction in the state those reads leave, then the
bookkeeping and the PPU dots (R167, R168), then a stop that was asked for (R359); where one of those reads faults, the step
answers that fault, in the state the reads before it leave. One step is one instruction by decision D1, its fetches are
ordinary bus reads by decision D6, and what a fault leaves is decision D15. That all the bytes are fetched before the
instruction executes is log entry 13; that PC is still pc0 at a fault of a fetch, and the BreakState's PC with it, is log entry
11. -/
def Obligations.StepRunsDecodedInstruction : Prop :=
  ∀ s : State, s.goes = true → s.nmiLatch = false → s.irqPending = false →
    (∀ (i : Instr) (t : State), i.wellFormed = true → BusReads s.pc (encode i) s t →
      step s =
        match exec i t.passGate with
        | .next u => .next (applyStop (finishStep Config.vblankDot u))
        | .fault e => .fault e
        | .refused r => .refused r) ∧
    ∀ (i : Instr) (k : Nat) (t : State) (kind : FaultKind), i.wellFormed = true → k < (encode i).length →
      BusReads s.pc ((encode i).take k) s t → readFault t (s.pc + BitVec.ofNat 16 k) = some kind →
      step s = faultAt kind t.passGate

/-- R37, R160, R166–R168: a completed step counts its cycles, leaves `odd` their parity, and moves the PPU by three dots for
each of them, modulo the 89342 dots of a frame. That the PPU runs after the step and the parity counts whole steps are
decisions D1 and D4. -/
def Obligations.StepCountsCycles : Prop :=
  ∀ s t : State, s.goes = true → s.ppu.scanline < 262 → s.ppu.dot < 341 → step s = .next t →
    t.cycles = s.cycles + t.stepCycles ∧ t.odd = decide (t.cycles % 2 = 1) ∧
      t.ppu.position = (s.ppu.position + 3 * t.stepCycles) % 89342

/-- R332, R395: a completed step takes at least 2 and at most 520 cycles. The counts rest on decisions D2, D34 and D37. -/
def Obligations.StepTakesTwoToFiveHundredTwentyCycles : Prop :=
  ∀ s t : State, s.goes = true → step s = .next t → 2 ≤ t.stepCycles ∧ t.stepCycles ≤ 520

/-- R340: one dot, in every state: the events of the position it finds, then the advance; nothing else changes. The first dot
of a scanline is the open parameter of decision D10 (log entry 5), and no dot is skipped, decision D36. -/
def Obligations.PpuDotEvents : Prop :=
  ∀ (vb : Fin 2) (s : State),
    ppuDot vb s =
      { s with
        nmiLatch := s.nmiLatch || decide (s.ppu.scanline = 241 ∧ s.ppu.dot = vb.val ∧ s.ppu.ctrl.getLsbD 7 = true),
        ppu := { s.ppu with
          vblank :=
            if s.ppu.scanline = 241 ∧ s.ppu.dot = vb.val then true
            else if s.ppu.scanline = 261 ∧ s.ppu.dot = vb.val then false else s.ppu.vblank,
          spriteZero := s.ppu.spriteZero && !decide (s.ppu.scanline = 261 ∧ s.ppu.dot = vb.val),
          spriteOverflow := s.ppu.spriteOverflow && !decide (s.ppu.scanline = 261 ∧ s.ppu.dot = vb.val),
          dot := if s.ppu.dot + 1 = 341 then 0 else s.ppu.dot + 1,
          scanline := if s.ppu.dot + 1 = 341 then (s.ppu.scanline + 1) % 262 else s.ppu.scanline } }

/-- R340, R342: a frame is exactly 341 × 262 = 89342 dots. From every position a frame of dots comes back to it; it has
latched one NMI edge if ctrl[7] is 1, left the vblank flag 1 exactly when the position lies after the first dot of scanline
241 and not after that of scanline 261, cleared bits 6 and 5, and changed nothing else. The first dot of a scanline is the
open parameter of decision D10 (log entry 5), and no dot is skipped, decision D36. -/
def Obligations.FrameOfDots : Prop :=
  ∀ (vb : Fin 2) (s : State), s.ppu.scanline < 262 → s.ppu.dot < 341 →
    ppuDots vb (341 * 262) s =
      { s with
        nmiLatch := s.nmiLatch || s.ppu.ctrl.getLsbD 7,
        ppu := { s.ppu with
          vblank := decide (341 * 241 + vb.val < s.ppu.position ∧ s.ppu.position ≤ 341 * 261 + vb.val),
          spriteZero := false, spriteOverflow := false } }

/-- R331, R333, R334, R336: the step services the NMI if it is latched, else an unmasked IRQ, each with one entry of 7 cycles
that never faults, and else executes the instruction at PC. The entry as a step of its own, its 7 cycles, the one-bit latch
and the sampling are decisions D2, D3, D12 and D13. -/
def Obligations.InterruptEntryAndPriority : Prop :=
  ∀ s : State, s.goes = true →
    (s.nmiLatch = true →
      step s = .next (applyStop (finishStep Config.vblankDot
        { s.passGate with
          nmiLatch := false, ram := exceptionFrame s.pc ((getP s.flags &&& 0xEF) ||| 0x20) s, sp := s.sp - 3,
          flags := { s.flags with i := true }, pc := observeWord 0xFFFA s, stepCycles := 7 }))) ∧
    (s.nmiLatch = false → s.irqPending = true →
      step s = .next (applyStop (finishStep Config.vblankDot
        { s.passGate with
          ram := exceptionFrame s.pc ((getP s.flags &&& 0xEF) ||| 0x20) s, sp := s.sp - 3,
          flags := { s.flags with i := true }, pc := observeWord 0xFFFE s, stepCycles := 7 }))) ∧
    (s.nmiLatch = false → s.irqPending = false →
      step s = complete Config.vblankDot (executeNext s.passGate))

/-- R331, R332, R341: no instruction clears the NMI latch, and an instruction sets it only by taking ctrl[7] from 0 to 1 while
status[7] is 1. That only the change of ctrl[7] from 0 to 1 makes an edge is decision D11, and the one-bit latch is decision
D12. -/
def Obligations.NmiLatchSources : Prop :=
  ∀ (i : Instr) (s t : State), exec i s = .next t →
    t.nmiLatch = (s.nmiLatch || (!s.ppu.ctrl.getLsbD 7 && t.ppu.ctrl.getLsbD 7 && s.ppu.vblank))

/-! The status byte and the stack -/

/-- R26, R27: `get_p` packs the flags, `set_p` unpacks them, and `set_p(p); get_p() == (p | 0x20)`. The stored B is the spec's
own decision D3. -/
def Obligations.StatusByte : Prop :=
  (∀ p : Byte, getP (setP p) = p ||| 0x20) ∧
  ∀ f : Flags,
    setP (getP f) = f ∧
    (getP f).getLsbD 7 = f.n ∧ (getP f).getLsbD 6 = f.v ∧ (getP f).getLsbD 5 = true ∧ (getP f).getLsbD 4 = f.b ∧
      (getP f).getLsbD 3 = f.d ∧ (getP f).getLsbD 2 = f.i ∧ (getP f).getLsbD 1 = f.z ∧ (getP f).getLsbD 0 = f.c

/-- R28, with R24 and R63: a push writes the byte at $0100 | SP and decrements SP, and every other address reads as before; a
pull increments SP and reads there; the 16-bit forms are two of them, the high byte pushed first and pulled last; each pull
undoes its push. -/
def Obligations.StackPushPull : Prop :=
  (∀ (v : Byte) (s : State), ∃ t, push v s = .ok t ∧ t = { s with ram := t.ram, sp := s.sp - 1 } ∧
    memObserve (0x0100 ||| s.sp.setWidth 16) t = v ∧
    (∀ a : Word, sameCell a (0x0100 ||| s.sp.setWidth 16) = false → isPort a = false → memObserve a t = memObserve a s) ∧
    pull t = .ok (v, { t with sp := s.sp })) ∧
  (∀ (v : Word) (s : State), ∃ t, push16 v s = .ok t ∧ t = { s with ram := t.ram, sp := s.sp - 2 } ∧
    memObserve (0x0100 ||| s.sp.setWidth 16) t = (v >>> 8).setWidth 8 ∧
    memObserve (0x0100 ||| (s.sp - 1).setWidth 16) t = v.setWidth 8 ∧
    (∀ a : Word, sameCell a (0x0100 ||| s.sp.setWidth 16) = false → sameCell a (0x0100 ||| (s.sp - 1).setWidth 16) = false →
      isPort a = false → memObserve a t = memObserve a s) ∧
    pull16 t = .ok (v, { t with sp := s.sp })) ∧
  ∀ s : State,
    pull s = .ok (memObserve (0x0100 ||| (s.sp + 1).setWidth 16) s, { s with sp := s.sp + 1 }) ∧
    pull16 s = .ok
      (BitVec.ofNat 16 (256 * (memObserve (0x0100 ||| (s.sp + 2).setWidth 16) s).toNat +
        (memObserve (0x0100 ||| (s.sp + 1).setWidth 16) s).toNat),
       { s with sp := s.sp + 2 })

/-! The bus -/

/-- R63: an address up to $1FFF selects `ram[a & $07FF]`, for reads, writes and every mirror. -/
def Obligations.RamMirrors : Prop :=
  ∀ (a : Word) (s : State), a.toNat ≤ 0x1FFF →
    memRead a s = .ok (s.ram.read (a &&& 0x07FF).toNat, s) ∧
    ∀ d : Byte, ∃ t, memWrite a d s = .ok (0, t) ∧ t = { s with ram := t.ram } ∧
      ∀ b : Word, b.toNat ≤ 0x1FFF →
        memRead b t = .ok (if b &&& 0x07FF = a &&& 0x07FF then d else s.ram.read (b &&& 0x07FF).toNat, t)

/-- R64, R65, R77, R85, R87: PPU ports are mirrored every 8 bytes; reads of write-only ports and of $4014, and writes of
PPUSTATUS, fault; $4018–$401F faults both ways; the other I/O addresses read 0 and ignore writes. The faults at $4018–$401F
and of a write of PPUSTATUS, and the ignored writes, are decisions D16–D18. -/
def Obligations.PortMirrorsAndIoHoles : Prop :=
  ∀ (a : Word) (d : Byte) (s : State),
    (0x2000 ≤ a.toNat → a.toNat < 0x4000 →
      memRead a s = memRead (0x2000 + (a &&& 7)) s ∧ memWrite a d s = memWrite (0x2000 + (a &&& 7)) d s ∧
      ((a &&& 7) ∈ [(0 : Word), 1, 3, 5, 6] → memRead a s = .error (.raised (.invalidMmioRead (0x2000 + (a &&& 7))) s))) ∧
    (isPpuPort a 2 → memWrite a d s = .error (.raised (.invalidMmioWrite 0x2002) s)) ∧
    (a = 0x4014 → memRead a s = .error (.raised (.invalidMmioRead 0x4014) s)) ∧
    (0x4018 ≤ a.toNat → a.toNat ≤ 0x401F →
      memRead a s = .error (.raised (.unmappedAddress a) s) ∧ memWrite a d s = .error (.raised (.unmappedAddress a) s)) ∧
    ((0x4000 ≤ a.toNat ∧ a.toNat ≤ 0x4013) ∨ a = 0x4015 ∨ a = 0x4017 →
      memRead a s = .ok (0, s) ∧ memWrite a d s = .ok (0, s))

/-- R67–R69, R72–R74: what a write of PPUCTRL, PPUMASK, OAMADDR, PPUSCROLL and PPUADDR leaves, in every state. The NMI edge,
the shared toggle and the moment v changes are decisions D11, D20 and D21. -/
def Obligations.PpuRegisterWrites : Prop :=
  ∀ (a : Word) (d : Byte) (s : State),
    (isPpuPort a 0 → memWrite a d s = .ok (0,
      { s with
        ppu := { s.ppu with ctrl := d },
        nmiLatch := s.nmiLatch || (!s.ppu.ctrl.getLsbD 7 && d.getLsbD 7 && s.ppu.vblank) })) ∧
    (isPpuPort a 1 → memWrite a d s = .ok (0, { s with ppu := { s.ppu with mask := d } })) ∧
    (isPpuPort a 3 → memWrite a d s = .ok (0, { s with ppu := { s.ppu with oamaddr := d } })) ∧
    (isPpuPort a 5 → memWrite a d s = .ok (0,
      { s with ppu := if s.ppu.w = false then { s.ppu with scrollX := d, w := true }
                      else { s.ppu with scrollY := d, w := false } })) ∧
    (isPpuPort a 6 → memWrite a d s = .ok (0,
      { s with ppu := if s.ppu.w = false then { s.ppu with tHi := d, w := true }
                      else { s.ppu with v := BitVec.ofNat 16 (256 * s.ppu.tHi.toNat + d.toNat), w := false } }))

/-- R71, R341: a read of PPUSTATUS answers the vblank flag in bit 7 and a free value in bits 6..0, clears the flag and the
write toggle and takes no latched NMI back; a write of it faults. It holds for every value of the free input. The free bits
and the faulting write are decisions D18 and D19 (log entry 6), and the shared toggle is decision D20. -/
def Obligations.PpuStatusPort : Prop :=
  ∀ (a : Word) (s : State), isPpuPort a 2 →
    (∃ q : BitVec 7, memRead a s = .ok ((if s.ppu.vblank then 0x80 else 0) ||| q.setWidth 8,
      { s with ppu := { s.ppu with vblank := false, w := false }, draws := s.draws + 1 })) ∧
    ∀ d : Byte, memWrite a d s = .error (.raised (.invalidMmioWrite 0x2002) s)

/-- R70: OAMDATA reads at OAMADDR without an increment, and writes there and increments OAMADDR. That a read does not
increment is decision D24. -/
def Obligations.OamDataPort : Prop :=
  ∀ (a : Word) (s : State), isPpuPort a 4 →
    memRead a s = .ok (s.ppu.oam.read s.ppu.oamaddr.toNat, s) ∧
    ∀ d : Byte, ∃ t, memWrite a d s = .ok (0, t) ∧
      t = { s with ppu := { s.ppu with oam := t.ppu.oam, oamaddr := s.ppu.oamaddr + 1 } } ∧
      ∀ i < 256, t.ppu.oam.read i = if i = s.ppu.oamaddr.toNat then d else s.ppu.oam.read i

/-- R75, R76, R78: PPUDATA reads through the buffer, or directly in the palette, with the buffer filled from the nametable
below; it writes straight through, or faults where the PPU write does (CHR-ROM); v goes on by 1 or 32. What the buffer
receives on a palette read is decision D22. -/
def Obligations.PpuDataPort : Prop :=
  ∀ (a : Word) (s : State), isPpuPort a 7 →
    let va := s.ppu.v.toNat % 0x4000
    let next := s.ppu.v + (if s.ppu.ctrl.getLsbD 2 = true then 32 else 1)
    memRead a s = .ok
      (if 0x3F00 ≤ va then (ppuRead s va, { s with ppu := { s.ppu with buf := ppuRead s (va - 0x1000), v := next } })
       else (s.ppu.buf, { s with ppu := { s.ppu with buf := ppuRead s va, v := next } })) ∧
    ∀ d : Byte,
      match ppuWrite va d s with
      | .error e => memWrite a d s = .error e
      | .ok t => memWrite a d s = .ok (0, { t with ppu := { t.ppu with v := next } })

/-- R76, R80–R82, R92, R103: the PPU address space. Every address reads the byte of its place (CHR, CIRAM through the
mirroring map, or palette with its aliases), modulo $4000; a write changes exactly the addresses of the same place and nothing
but CHR-RAM, CIRAM and palette, and faults in CHR-ROM alone. The palette's 8 bits, the faulting write of CHR-ROM, the CHR bank
units and the mirroring modes are decisions D23, D27, D31 and D35; the address of the fault is log entry 15. -/
def Obligations.PpuAddressSpace : Prop :=
  ∀ (s : State) (a : Nat),
    (ppuRead s a = match ppuSlot s a with
      | .chr i => if s.cart.chrPages = 0 then s.chrRam.read i else s.cart.chr.read i
      | .nametable i => s.ppu.ciram.read i
      | .palette i => s.ppu.pal.read i) ∧
    ∀ d : Byte,
      if a % 0x4000 < 0x2000 ∧ s.cart.chrPages ≠ 0 then
        ppuWrite a d s = .error (.raised (.unmappedAddress (BitVec.ofNat 16 (a % 0x4000))) s)
      else ∃ t, ppuWrite a d s = .ok t ∧
        t = { s with chrRam := t.chrRam, ppu := { s.ppu with ciram := t.ppu.ciram, pal := t.ppu.pal } } ∧
        ∀ b : Nat, ppuRead t b = if ppuSlot s b = ppuSlot s a then d else ppuRead s b

/-- R86: the controller: a write sets strobe and, with bit 0 clear, resets the pointer; the reads answer the buttons in order
and then 1; where the host has said nothing a read answers 0 or 1. The sense of a button's bit and the upper bits are decision
D25, and buttons the host has not given are log entry 7. -/
def Obligations.ControllerPort : Prop :=
  ∀ s : State,
    (∀ d : Byte, memWrite 0x4016 d s = .ok (0,
      { s with pad := { s.pad with strobe := d.getLsbD 0, ptr := if d.getLsbD 0 = false then 0 else s.pad.ptr } })) ∧
    (8 ≤ s.pad.ptr → memRead 0x4016 s = .ok (1, s)) ∧
    (∀ b : Byte, s.pad.buttons = some b → s.pad.ptr < 8 →
      memRead 0x4016 s =
        .ok (if b.getLsbD s.pad.ptr then 1 else 0, { s with pad := { s.pad with ptr := s.pad.ptr + 1 } })) ∧
    (s.pad.buttons = none → s.pad.ptr < 8 →
      ∃ r : Bool, memRead 0x4016 s =
        .ok (if r then 1 else 0, { s with pad := { s.pad with ptr := s.pad.ptr + 1 }, draws := s.draws + 1 }))

/-- R91, R93, R94: the CPU side of an NROM cartridge. The optional SRAM and the faulting accesses are decisions D27 and D28.
-/
def Obligations.NromAccesses : Prop :=
  ∀ (a : Word) (d : Byte) (s : State), s.cart.mapper = .nrom →
    (0x8000 ≤ a.toNat →
      memRead a s = .ok (s.cart.prg.read (16384 * ((a.toNat - 0x8000) / 16384 % s.cart.prgPages) + a.toNat % 16384), s) ∧
      memWrite a d s = .error (.raised (.unmappedAddress a) s)) ∧
    (0x6000 ≤ a.toNat → a.toNat < 0x8000 →
      if s.cart.nromSram then
        memRead a s = .ok (s.cartRam.read (a.toNat - 0x6000), s) ∧
        ∃ t, memWrite a d s = .ok (0, t) ∧ t = { s with cartRam := t.cartRam } ∧
          ∀ i, t.cartRam.read i = if i = a.toNat - 0x6000 then d else s.cartRam.read i
      else memRead a s = .error (.raised (.unmappedAddress a) s) ∧ memWrite a d s = .error (.raised (.unmappedAddress a) s)) ∧
    (0x4020 ≤ a.toNat → a.toNat < 0x6000 →
      memRead a s = .error (.raised (.unmappedAddress a) s) ∧ memWrite a d s = .error (.raised (.unmappedAddress a) s)) ∧
    (mirroring s = match s.cart.mirroring with | .horizontal => .horizontal | .vertical => .vertical)

/-- R96, R97: one write to the MMC1 serial port: bit 7 set resets the shift register and sets control bits 3..2; bit 7 clear
loads one bit, and the fifth commits and empties the register. That every write is processed is decision D30; that the count
is below 5 is part of the invariant. -/
def Obligations.Mmc1SerialWrite : Prop :=
  ∀ (a : Word) (d : Byte) (s : State), s.cart.mapper = .mmc1 → 0x8000 ≤ a.toNat → s.mmc1.count < 5 →
    ∃ t, memWrite a d s = .ok (0, t) ∧ t = { s with mmc1 := t.mmc1 } ∧
      (d.getLsbD 7 = true →
        t.mmc1 = { s.mmc1 with shift := 0, count := 0, control := s.mmc1.control ||| 0x0C }) ∧
      (d.getLsbD 7 = false → s.mmc1.count < 4 →
        t.mmc1 = { s.mmc1 with
          shift := s.mmc1.shift ||| ((d &&& 1).setWidth 5 <<< s.mmc1.count), count := s.mmc1.count + 1 }) ∧
      (d.getLsbD 7 = false → s.mmc1.count = 4 →
        let val := s.mmc1.shift ||| ((d &&& 1).setWidth 5 <<< 4)
        t.mmc1 =
          if a.toNat < 0xA000 then { s.mmc1 with shift := 0, count := 0, control := val, booted := true }
          else if a.toNat < 0xC000 then { s.mmc1 with shift := 0, count := 0, chr0 := val }
          else if a.toNat < 0xE000 then { s.mmc1 with shift := 0, count := 0, chr1 := val }
          else { s.mmc1 with shift := 0, count := 0, prg := val })

/-- R97, R98, R386: from an empty serial port, five writes with bit 7 clear commit their bits 0, the first as bit 0, to the
register that the address of the fifth alone selects, and leave the port empty. -/
def Obligations.Mmc1FiveWritesCommit : Prop :=
  ∀ (s s1 s2 s3 s4 s5 : State) (a1 a2 a3 a4 a5 : Word) (d1 d2 d3 d4 d5 : Byte),
    s.cart.mapper = .mmc1 → s.mmc1.shift = 0 → s.mmc1.count = 0 →
    (∀ a ∈ [a1, a2, a3, a4, a5], 0x8000 ≤ a.toNat) → (∀ d ∈ [d1, d2, d3, d4, d5], d.getLsbD 7 = false) →
    memWrite a1 d1 s = .ok (0, s1) → memWrite a2 d2 s1 = .ok (0, s2) → memWrite a3 d3 s2 = .ok (0, s3) →
    memWrite a4 d4 s3 = .ok (0, s4) → memWrite a5 d5 s4 = .ok (0, s5) →
    s5 = { s with mmc1 := s5.mmc1 } ∧
    ∃ val : Five,
      (val.getLsbD 0 = d1.getLsbD 0 ∧ val.getLsbD 1 = d2.getLsbD 0 ∧ val.getLsbD 2 = d3.getLsbD 0 ∧
        val.getLsbD 3 = d4.getLsbD 0 ∧ val.getLsbD 4 = d5.getLsbD 0) ∧
      s5.mmc1 = match (a5.extractLsb 14 13).toNat with
        | 0 => { s.mmc1 with control := val, booted := true }
        | 1 => { s.mmc1 with chr0 := val }
        | 2 => { s.mmc1 with chr1 := val }
        | _ => { s.mmc1 with prg := val }

/-- R99–R102, R104: the CPU reads of an MMC1 cartridge, its PRG-RAM, and its mirroring. Bank numbers modulo the page count,
the map before the first commit, the ignored prg bit 4, the RAM that is always enabled and the hole below it are decisions
D28, D29 and D31. -/
def Obligations.Mmc1Accesses : Prop :=
  ∀ (a : Word) (d : Byte) (s : State), s.cart.mapper = .mmc1 →
    (0x8000 ≤ a.toNat →
      memRead a s =
        .ok (s.cart.prg.read (16384 * mmc1Page s.mmc1 s.cart.prgPages a.toNat + a.toNat % 16384), s)) ∧
    (0x6000 ≤ a.toNat → a.toNat < 0x8000 →
      memRead a s = .ok (s.cartRam.read (a.toNat - 0x6000), s) ∧
      ∃ t, memWrite a d s = .ok (0, t) ∧ t = { s with cartRam := t.cartRam } ∧
        ∀ i, t.cartRam.read i = if i = a.toNat - 0x6000 then d else s.cartRam.read i) ∧
    (0x4020 ≤ a.toNat → a.toNat < 0x6000 →
      memRead a s = .error (.raised (.unmappedAddress a) s) ∧ memWrite a d s = .error (.raised (.unmappedAddress a) s)) ∧
    (mirroring s = match (s.mmc1.control &&& 3).toNat with
      | 0 => .singleLower
      | 1 => .singleUpper
      | 2 => .vertical
      | _ => .horizontal)

/-- R85, R175, R176, R323: a write of d to $4014 copies the 256 bytes from $d00 to OAM and answers the stall, with oamaddr and
all else unchanged; from a page with no memory behind it, it faults at the first source address that does, with the bytes
before it copied: the 20 zeros of $4000–$4013 from page $40, none from another page. The parity, the place
in OAM and the side effects of the source reads are decisions D4–D6. -/
def Obligations.OamDmaCopies : Prop :=
  ∀ (d : Byte) (s : State),
    if d < 0x20 ∨ 0x80 ≤ d ∨ (0x60 ≤ d ∧ (s.cart.mapper = .mmc1 ∨ s.cart.nromSram = true)) then
      ∃ t, memWrite 0x4014 d s = .ok (if s.odd then 514 else 513, t) ∧
        t = { s with ppu := { s.ppu with oam := t.ppu.oam } } ∧
        ∀ i < 256, t.ppu.oam.read i = memObserve (BitVec.ofNat 16 (256 * d.toNat + i)) s
    else
      ∃ t, memWrite 0x4014 d s = .error (.raised
          (if d < 0x40 then .invalidMmioRead 0x2000
           else if d = 0x40 then .invalidMmioRead 0x4014
           else .unmappedAddress (BitVec.ofNat 16 (256 * d.toNat))) t) ∧
        t = { s with ppu := { s.ppu with oam := t.ppu.oam } } ∧
        ∀ i, t.ppu.oam.read i = if d = 0x40 ∧ i < 20 then 0 else s.ppu.oam.read i

/-- R53, R60, R62: a bus read changes nothing but the PPU's vblank flag, write toggle, buffer and v, the controller's pointer
and the count of free inputs, and that only at PPUSTATUS, PPUDATA and the controller; every other read changes nothing. An
observation answers what the read answers, and 0 where the read faults, and a faulting read changes nothing. What an
observation answers is decision D26; that it takes the next free value without drawing it is log entry 17. -/
def Obligations.BusReadFrame : Prop :=
  (∀ (a : Word) (s t : State) (d : Byte), memRead a s = .ok (d, t) →
    t = { s with
      ppu := { s.ppu with vblank := t.ppu.vblank, w := t.ppu.w, buf := t.ppu.buf, v := t.ppu.v },
      pad := { s.pad with ptr := t.pad.ptr }, draws := t.draws } ∧
    (readHasSideEffect a = false → t = s) ∧ memObserve a s = d) ∧
  ∀ (a : Word) (s t : State) (kind : FaultKind), memRead a s = .error (.raised kind t) → t = s ∧ memObserve a s = 0

/-! Loads, stores, transfers, stack -/

/-- R201–R203: LDA, LDX, LDY. What a fault leaves is decision D15, R323 and log entry 11. -/
def Obligations.Loads : Prop :=
  ReadsOperand rowsLda (fun m t => { t with a := m, flags := nzFrom m t.flags }) ∧
  ReadsOperand rowsLdx (fun m t => { t with x := m, flags := nzFrom m t.flags }) ∧
  ReadsOperand rowsLdy (fun m t => { t with y := m, flags := nzFrom m t.flags })

/-- R204–R206: STA, STX, STY. What a fault leaves is decision D15, R323 and log entry 11. -/
def Obligations.Stores : Prop :=
  StoresRegister rowsSta State.a ∧ StoresRegister rowsStx State.x ∧ StoresRegister rowsSty State.y

/-- R53, R200: an instruction that stores nothing to memory leaves every memory, the cartridge and its registers, and every
address that is no device port, as it was. -/
def Obligations.ReadingInstructionsLeaveMemory : Prop :=
  ∀ (i : Instr) (s t : State), storesToMemory i = false → exec i s = .next t →
    (∀ a : Word, isPort a = false → memObserve a t = memObserve a s) ∧
    t.ram = s.ram ∧ t.cartRam = s.cartRam ∧ t.chrRam = s.chrRam ∧ t.cart = s.cart ∧ t.mmc1 = s.mmc1 ∧
    t.ppu.ciram = s.ppu.ciram ∧ t.ppu.pal = s.ppu.pal ∧ t.ppu.oam = s.ppu.oam ∧
    t.ppu.ctrl = s.ppu.ctrl ∧ t.ppu.mask = s.ppu.mask ∧ t.ppu.oamaddr = s.ppu.oamaddr ∧
    t.ppu.scrollX = s.ppu.scrollX ∧ t.ppu.scrollY = s.ppu.scrollY ∧ t.ppu.tHi = s.ppu.tHi ∧
    t.pad.strobe = s.pad.strobe ∧ t.nmiLatch = s.nmiLatch

/-- R61, R63, R165, R204: a store or read-modify-write changes no byte outside the one at its EA: every address that is no
device port and no mirror of EA reads as before (but that a write to an MMC1's ROM window can switch banks there), no byte of
ROM changes, and the PPU's memories change only through their own ports. The byte read through a bank is left out where the
store can switch banks. -/
def Obligations.StoringInstructionsFrame : Prop :=
  ∀ rows ∈ storingRows, ∀ (p : Place) (r : Row) (s t : State), rows p = some r → exec r.instr s = .next t →
    (∀ a : Word, isPort a = false → sameCell a (p.ea s) = false → ¬ (0x8000 ≤ a.toNat ∧ 0x8000 ≤ (p.ea s).toNat) →
      memObserve a t = memObserve a s) ∧
    t.cart = s.cart ∧
    (¬ isPpuPort (p.ea s) 7 → t.ppu.ciram = s.ppu.ciram ∧ t.ppu.pal = s.ppu.pal ∧ t.chrRam = s.chrRam) ∧
    (¬ isPpuPort (p.ea s) 4 → p.ea s ≠ 0x4014 → t.ppu.oam = s.ppu.oam)

/-- R207–R212: TAX, TAY, TXA, TYA, TSX set N and Z; TXS writes no flag. -/
def Obligations.Transfers : Prop :=
  ActsAlone .tax 0xAA (fun s => { s with x := s.a, flags := nzFrom s.a s.flags }) ∧
  ActsAlone .tay 0xA8 (fun s => { s with y := s.a, flags := nzFrom s.a s.flags }) ∧
  ActsAlone .txa 0x8A (fun s => { s with a := s.x, flags := nzFrom s.x s.flags }) ∧
  ActsAlone .tya 0x98 (fun s => { s with a := s.y, flags := nzFrom s.y s.flags }) ∧
  ActsAlone .tsx 0xBA (fun s => { s with x := s.sp, flags := nzFrom s.sp s.flags }) ∧
  ActsAlone .txs 0x9A (fun s => { s with sp := s.x })

/-- R213–R216: PHA, PHP, PLA, PLP, in every state. The pushed B and the stored B are decision D3. -/
def Obligations.StackInstructions : Prop :=
  ∀ s : State,
    (encode .pha = [0x48] ∧ encode .php = [0x08] ∧ encode .pla = [0x68] ∧ encode .plp = [0x28]) ∧
    exec .pha s = .next
      { s with ram := s.ram.write (0x100 + s.sp.toNat) s.a, sp := s.sp - 1, pc := s.pc + 1, stepCycles := 3 } ∧
    exec .php s = .next
      { s with
        ram := s.ram.write (0x100 + s.sp.toNat) (getP s.flags ||| 0x30), sp := s.sp - 1, pc := s.pc + 1,
        stepCycles := 3 } ∧
    exec .pla s = .next
      { s with
        a := s.ram.read (0x100 + (s.sp + 1).toNat), flags := nzFrom (s.ram.read (0x100 + (s.sp + 1).toNat)) s.flags,
        sp := s.sp + 1, pc := s.pc + 1, stepCycles := 4 } ∧
    exec .plp s = .next
      { s with flags := setP (s.ram.read (0x100 + (s.sp + 1).toNat)), sp := s.sp + 1, pc := s.pc + 1, stepCycles := 4 }

/-- R24, R28, R213, R214, R272, R275: what pushes leaves every byte but its stack slots as it was: one for PHA and PHP, two
for JSR, three for BRK. -/
def Obligations.PushingInstructionsFrame : Prop :=
  ∀ (i : Instr) (n : Nat) (s t : State),
    (i, n) ∈ [(Instr.pha, 1), (.php, 1), (.brk, 3)] ∨ (n = 2 ∧ ∃ addr, i = .jsr addr) → exec i s = .next t →
    t.sp = s.sp - BitVec.ofNat 8 n ∧
    ∀ a : Word, isPort a = false →
      (∀ k < n, sameCell a (0x0100 ||| (s.sp - BitVec.ofNat 8 k).setWidth 16) = false) → memObserve a t = memObserve a s

/-! Arithmetic, logic, compares, increments, shifts -/

/-- R231: ADC, every form: the sum of A, M and C, whatever D holds. What a fault leaves is decision D15, R323 and log entry 11.
-/
def Obligations.AddWithCarry : Prop :=
  ReadsOperand rowsAdc fun m t =>
    let sum := t.a.toNat + m.toNat + (if t.flags.c then 1 else 0)
    let r : Byte := BitVec.ofNat 8 sum
    { t with
      a := r,
      flags := { t.flags with
        c := decide (0xFF < sum), v := decide ((t.a ^^^ r) &&& (m ^^^ r) &&& 0x80 ≠ 0), n := r.getLsbD 7,
        z := decide (r = 0) } }

/-- R232: SBC, every form: the sum of A, the complement of M and C, whatever D holds. What a fault leaves is decision D15, R323
and log entry 11. -/
def Obligations.SubtractWithBorrow : Prop :=
  ReadsOperand rowsSbc fun m t =>
    let sum := t.a.toNat + (m ^^^ 0xFF).toNat + (if t.flags.c then 1 else 0)
    let r : Byte := BitVec.ofNat 8 sum
    { t with
      a := r,
      flags := { t.flags with
        c := decide (0xFF < sum), v := decide ((t.a ^^^ m) &&& (t.a ^^^ r) &&& 0x80 ≠ 0), n := r.getLsbD 7,
        z := decide (r = 0) } }

/-- R34, R231, R232: what the flags of ADC and SBC mean. C of ADC is the carry out, C of SBC says that A is not below M plus
the borrow; V of both says that the signed result does not fit in a byte; V of SBC is V of ADC on the complement. -/
def Obligations.CarryAndOverflowMean : Prop :=
  ∀ (a m : Byte) (f : Flags),
    let carry : Nat := if f.c then 1 else 0
    ((adc a m f).1.toNat + 256 * (if (adc a m f).2.c then 1 else 0) = a.toNat + m.toNat + carry) ∧
    ((adc a m f).2.v = decide (a.toInt + m.toInt + carry < -128 ∨ 127 < a.toInt + m.toInt + carry)) ∧
    ((sbc a m f).2.c = decide (m.toNat + (1 - carry) ≤ a.toNat)) ∧
    ((sbc a m f).2.v =
      decide (a.toInt - m.toInt - (1 - (carry : Int)) < -128 ∨ 127 < a.toInt - m.toInt - (1 - (carry : Int)))) ∧
    sbc a m f = adc a (m ^^^ 0xFF) f

/-- R233–R235: AND, ORA, EOR. What a fault leaves is decision D15, R323 and log entry 11. -/
def Obligations.LogicalInstructions : Prop :=
  ReadsOperand rowsAnd (fun m t => { t with a := t.a &&& m, flags := nzFrom (t.a &&& m) t.flags }) ∧
  ReadsOperand rowsOra (fun m t => { t with a := t.a ||| m, flags := nzFrom (t.a ||| m) t.flags }) ∧
  ReadsOperand rowsEor (fun m t => { t with a := t.a ^^^ m, flags := nzFrom (t.a ^^^ m) t.flags })

/-- R236–R239: BIT, CMP, CPX, CPY change flags alone. What a fault leaves is decision D15, R323 and log entry 11. -/
def Obligations.BitAndCompares : Prop :=
  ReadsOperand rowsBit (fun m t =>
    { t with flags := { t.flags with z := decide (t.a &&& m = 0), n := m.getLsbD 7, v := m.getLsbD 6 } }) ∧
  ReadsOperand rowsCmp (fun m t => { t with flags := { nzFrom (t.a - m) t.flags with c := decide (m.toNat ≤ t.a.toNat) } }) ∧
  ReadsOperand rowsCpx (fun m t => { t with flags := { nzFrom (t.x - m) t.flags with c := decide (m.toNat ≤ t.x.toNat) } }) ∧
  ReadsOperand rowsCpy (fun m t => { t with flags := { nzFrom (t.y - m) t.flags with c := decide (m.toNat ≤ t.y.toNat) } })

/-- R165, R240, R241: INC and DEC of memory; C and V stay. The MMC1 check, the single read and write, and that
they are two accesses are decisions D30, D32 and D40, and what a fault leaves is decision D15, R323 and log entry 11. -/
def Obligations.IncrementAndDecrementMemory : Prop :=
  ReadModifyWrites rowsInc (fun m c => (m + 1, c)) ∧ ReadModifyWrites rowsDec (fun m c => (m - 1, c))

/-- R242–R245: INX, INY, DEX, DEY. -/
def Obligations.IncrementAndDecrementRegisters : Prop :=
  ActsAlone .inx 0xE8 (fun s => { s with x := s.x + 1, flags := nzFrom (s.x + 1) s.flags }) ∧
  ActsAlone .iny 0xC8 (fun s => { s with y := s.y + 1, flags := nzFrom (s.y + 1) s.flags }) ∧
  ActsAlone .dex 0xCA (fun s => { s with x := s.x - 1, flags := nzFrom (s.x - 1) s.flags }) ∧
  ActsAlone .dey 0x88 (fun s => { s with y := s.y - 1, flags := nzFrom (s.y - 1) s.flags })

/-- R131, R165, R246–R249: ASL, LSR, ROL, ROR on memory and on A: the bit shifted out is C, the old C comes into ROL and ROR.
The MMC1 check, the single read and write, and that they are two accesses are decisions D30, D32 and D40, and what a fault
leaves, the new C among it, is decision D15, R323 and log entry 11. -/
def Obligations.ShiftsAndRotates : Prop :=
  ReadModifyWrites rowsAsl (fun m _ => (BitVec.ofNat 8 (2 * m.toNat), m.getLsbD 7)) ∧
  ReadModifyWrites rowsLsr (fun m _ => (BitVec.ofNat 8 (m.toNat / 2), m.getLsbD 0)) ∧
  ReadModifyWrites rowsRol (fun m c => (BitVec.ofNat 8 (2 * m.toNat + (if c then 1 else 0)), m.getLsbD 7)) ∧
  ReadModifyWrites rowsRor (fun m c => (BitVec.ofNat 8 (m.toNat / 2 + (if c then 128 else 0)), m.getLsbD 0)) ∧
  ActsAlone .aslAcc 0x0A (fun s =>
    let r : Byte := BitVec.ofNat 8 (2 * s.a.toNat)
    { s with a := r, flags := { nzFrom r s.flags with c := s.a.getLsbD 7 } }) ∧
  ActsAlone .lsrAcc 0x4A (fun s =>
    let r : Byte := BitVec.ofNat 8 (s.a.toNat / 2)
    { s with a := r, flags := { nzFrom r s.flags with c := s.a.getLsbD 0 } }) ∧
  ActsAlone .rolAcc 0x2A (fun s =>
    let r : Byte := BitVec.ofNat 8 (2 * s.a.toNat + (if s.flags.c then 1 else 0))
    { s with a := r, flags := { nzFrom r s.flags with c := s.a.getLsbD 7 } }) ∧
  ActsAlone .rorAcc 0x6A (fun s =>
    let r : Byte := BitVec.ofNat 8 (s.a.toNat / 2 + (if s.flags.c then 128 else 0))
    { s with a := r, flags := { nzFrom r s.flags with c := s.a.getLsbD 0 } })

/-! Control transfer -/

/-- R140, R271, R323: JMP, both forms. The high byte of the indirect pointer is read in the same page; the indirect form
faults with the first of its two pointer reads that does, with PC past the instruction and the first read's side effects in
place. What a fault leaves is decision D15, R323 and log entry 11. -/
def Obligations.Jumps : Prop :=
  ∀ (addr : Word) (s : State),
    let hiAddr := (addr &&& 0xFF00) ||| ((addr + 1) &&& 0x00FF)
    encode (.jmpAbs addr) = [0x4C, addr.setWidth 8, (addr >>> 8).setWidth 8] ∧
    encode (.jmpInd addr) = [0x6C, addr.setWidth 8, (addr >>> 8).setWidth 8] ∧
    exec (.jmpAbs addr) s = .next { s with pc := addr, stepCycles := 3 } ∧
    match readFault s addr, readFault s hiAddr with
    | some e, _ => exec (.jmpInd addr) s = faultAt e { s with pc := s.pc + 3, stepCycles := 5 }
    | none, some e => ∃ lo s1, memRead addr s = .ok (lo, s1) ∧
        exec (.jmpInd addr) s = faultAt e { s1 with pc := s.pc + 3, stepCycles := 5 }
    | none, none => ∃ lo hi s1 s2, memRead addr s = .ok (lo, s1) ∧ memRead hiAddr s1 = .ok (hi, s2) ∧
        exec (.jmpInd addr) s = .next { s2 with pc := BitVec.ofNat 16 (256 * hi.toNat + lo.toNat), stepCycles := 5 }

/-- R272, R273: JSR pushes the address of its own last byte, high byte first; RTS pulls and adds 1. -/
def Obligations.CallAndReturn : Prop :=
  ∀ (addr : Word) (s : State),
    encode (.jsr addr) = [0x20, addr.setWidth 8, (addr >>> 8).setWidth 8] ∧ encode .rts = [0x60] ∧
    exec (.jsr addr) s = .next
      { s with
        ram := (s.ram.write (0x100 + s.sp.toNat) (((s.pc + 2) >>> 8).setWidth 8)).write (0x100 + (s.sp - 1).toNat)
          ((s.pc + 2).setWidth 8),
        sp := s.sp - 2, pc := addr, stepCycles := 6 } ∧
    exec .rts s = .next
      { s with
        sp := s.sp + 2,
        pc := BitVec.ofNat 16 (256 * (s.ram.read (0x100 + (s.sp + 2).toNat)).toNat +
          (s.ram.read (0x100 + (s.sp + 1).toNat)).toNat + 1),
        stepCycles := 6 }

/-- R274, R275: BRK takes the exception of $FFFE whatever I holds; RTI pulls P, then PC, without adding 1. The stored B is
decision D3. -/
def Obligations.BreakAndReturnFromInterrupt : Prop :=
  ∀ s : State,
    encode .brk = [0x00] ∧ encode .rti = [0x40] ∧
    exec .brk s = .next
      { s with
        ram := exceptionFrame (s.pc + 2) (getP s.flags ||| 0x30) s, sp := s.sp - 3,
        flags := { s.flags with i := true }, pc := observeWord 0xFFFE s, stepCycles := 7 } ∧
    exec .rti s = .next
      { s with
        flags := setP (s.ram.read (0x100 + (s.sp + 1).toNat)), sp := s.sp + 3,
        pc := BitVec.ofNat 16 (256 * (s.ram.read (0x100 + (s.sp + 3).toNat)).toNat +
          (s.ram.read (0x100 + (s.sp + 2).toNat)).toNat),
        stepCycles := 6 }

/-- R272–R275, R336, R338: each return undoes its entry, in every state, while the stack bytes stand: RTS after JSR comes to
the next instruction with the old SP; RTI after BRK comes to pc0 + 2, with the old SP and flags, B set; RTI after an interrupt
entry comes to the interrupted instruction, with the old SP and flags, B clear. The stored B is decision D3. -/
def Obligations.ReturnsUndoEntries : Prop :=
  ∀ s t u v : State, u.ram = t.ram → u.sp = t.sp →
    (∀ addr, exec (.jsr addr) s = .next t → exec .rts u = .next v → v.pc = s.pc + 3 ∧ v.sp = s.sp) ∧
    (exec .brk s = .next t → exec .rti u = .next v →
      v.pc = s.pc + 2 ∧ v.sp = s.sp ∧ v.flags = { s.flags with b := true }) ∧
    (∀ vec ∈ [nmiVector, irqVector], interruptEntry vec s = .ok t → exec .rti u = .next v →
      v.pc = s.pc ∧ v.sp = s.sp ∧ v.flags = { s.flags with b := false })

/-- R136, R270, R276–R283: the eight conditional branches. The base of the offset and of the page test is decision D34, and
the wrap of PC is decision D39. -/
def Obligations.ConditionalBranches : Prop :=
  Branches .bcc 0x90 (fun f => !f.c) ∧ Branches .bcs 0xB0 (fun f => f.c) ∧ Branches .beq 0xF0 (fun f => f.z) ∧
  Branches .bmi 0x30 (fun f => f.n) ∧ Branches .bne 0xD0 (fun f => !f.z) ∧ Branches .bpl 0x10 (fun f => !f.n) ∧
  Branches .bvc 0x50 (fun f => !f.v) ∧ Branches .bvs 0x70 (fun f => f.v)

/-! Flags -/

/-- R300–R308: CLC, SEC, CLI, SEI, CLD, SED, CLV write one flag; NOP nothing. -/
def Obligations.FlagInstructions : Prop :=
  ActsAlone .clc 0x18 (fun s => { s with flags := { s.flags with c := false } }) ∧
  ActsAlone .sec 0x38 (fun s => { s with flags := { s.flags with c := true } }) ∧
  ActsAlone .cli 0x58 (fun s => { s with flags := { s.flags with i := false } }) ∧
  ActsAlone .sei 0x78 (fun s => { s with flags := { s.flags with i := true } }) ∧
  ActsAlone .cld 0xD8 (fun s => { s with flags := { s.flags with d := false } }) ∧
  ActsAlone .sed 0xF8 (fun s => { s with flags := { s.flags with d := true } }) ∧
  ActsAlone .clv 0xB8 (fun s => { s with flags := { s.flags with v := false } }) ∧
  ActsAlone .nop 0xEA (fun s => s)

/-! Whole-machine rules -/

/-- R21–R24, R29–R35: each register and flag is written only by the instructions its rule lists; the bookkeeping of R36–R38
and the gate are written by none. -/
def Obligations.OnlyWritersWrite : Prop :=
  ∀ (i : Instr) (s t : State), exec i s = .next t →
    (t.a ≠ s.a → mnemonicOf i ∈ [.lda, .pla, .txa, .tya, .adc, .sbc, .and, .ora, .eor] ∨
      i ∈ [.aslAcc, .lsrAcc, .rolAcc, .rorAcc]) ∧
    (t.x ≠ s.x → mnemonicOf i ∈ [.ldx, .tax, .tsx, .inx, .dex]) ∧
    (t.y ≠ s.y → mnemonicOf i ∈ [.ldy, .tay, .iny, .dey]) ∧
    (t.sp ≠ s.sp → mnemonicOf i ∈ [.txs, .pha, .php, .pla, .plp, .jsr, .rts, .rti, .brk]) ∧
    (t.flags.c ≠ s.flags.c →
      mnemonicOf i ∈ [.adc, .sbc, .cmp, .cpx, .cpy, .asl, .lsr, .rol, .ror, .clc, .sec, .plp, .rti]) ∧
    (t.flags.v ≠ s.flags.v → mnemonicOf i ∈ [.adc, .sbc, .bit, .clv, .plp, .rti]) ∧
    (t.flags.i ≠ s.flags.i → mnemonicOf i ∈ [.sei, .cli, .brk, .plp, .rti]) ∧
    (t.flags.n ≠ s.flags.n ∨ t.flags.z ≠ s.flags.z →
      mnemonicOf i ∈ [.lda, .ldx, .ldy, .tax, .tay, .txa, .tya, .tsx, .pla, .adc, .sbc, .and, .ora, .eor, .bit, .cmp, .cpx, .cpy] ∨
      mnemonicOf i ∈ [.inc, .dec, .inx, .iny, .dex, .dey, .asl, .lsr, .rol, .ror, .plp, .rti]) ∧
    t.odd = s.odd ∧ t.cycles = s.cycles ∧ t.status = s.status ∧ t.irqLine = s.irqLine ∧ t.gate = s.gate

/-- R32: D is written by CLD, SED, PLP and RTI alone, interrupt entries leave it, and but for the pushes of P (PHP, BRK) no
instruction reads it: two runs that differ in D alone differ in D alone, or not at all, afterwards. -/
def Obligations.DecimalFlagIsIgnored : Prop :=
  (∀ (i : Instr) (s t : State), exec i s = .next t →
    t.flags.d = match i with
      | .cld => false
      | .sed => true
      | .plp | .rti => (s.ram.read (0x100 + (s.sp + 1).toNat)).getLsbD 3
      | _ => s.flags.d) ∧
  (∀ vec ∈ [nmiVector, irqVector], ∀ s t : State, interruptEntry vec s = .ok t → t.flags.d = s.flags.d) ∧
  ∀ (i : Instr) (s : State), i ≠ .php → i ≠ .brk →
    viewOutcome State.eraseD (exec i s) = viewOutcome State.eraseD (exec i s.eraseD)

/-- R33: the stored B is written by PLP and RTI alone, from bit 4 of the pulled byte, and a program can never observe it:
steps from two states that differ in B alone end in the same way and, B apart, in the same state. The stored B is the spec's
own decision D3. -/
def Obligations.StoredBreakFlagIsInvisible : Prop :=
  (∀ (i : Instr) (s t : State), exec i s = .next t →
    t.flags.b = match i with
      | .plp | .rti => (s.ram.read (0x100 + (s.sp + 1).toNat)).getLsbD 4
      | _ => s.flags.b) ∧
  (∀ vec ∈ [nmiVector, irqVector], ∀ s t : State, interruptEntry vec s = .ok t → t.flags.b = s.flags.b) ∧
  ∀ s : State, viewOutcome State.eraseB (step s) = viewOutcome State.eraseB (step s.eraseB)

/-- R355, R356, R359: the debug gate changes nothing of the machine but `status`: where neither gate breaks and no stop was
asked for, a step does the same whatever the gate holds; where it breaks, it publishes its BreakState once and then stops the
core if a stop was asked for, waits if there is no signal, and else obeys the oldest signal, with MODE, BREAKS and all else as
they were. The order of the gate and the interrupt check is decision D33; a gate that waits answers the same machine again,
and surplus signals stay for a later gate, log entry 9; a stop goes before the signals, log entry 10. -/
def Obligations.DebugGateIsInvisible : Prop :=
  (∀ (s : State) (g : Gate), s.goes = true → ({ s with gate := g } : State).goes = true →
    s.gate.stopRequested = false → g.stopRequested = false →
    viewOutcome State.eraseGate (step s) = viewOutcome State.eraseGate (step { s with gate := g })) ∧
  ∀ s : State, s.status = .running → breaksHere s = true →
    let published := if s.gate.waiting then s.gate.published else ⟨s.pc, none⟩ :: s.gate.published
    if s.gate.stopRequested = true then
      step s = .next { s with
        gate := { s.gate with waiting := false, stopRequested := false, published := published }, status := .stopped }
    else
      match s.gate.signals with
      | [] => step s = .next { s with gate := { s.gate with waiting := true, published := published } }
      | .stop :: rest => step s = .next { s with
          gate := { s.gate with waiting := false, signals := rest, published := published }, status := .stopped }
      | sig :: rest => step s = complete Config.vblankDot (serviceOrExecute { s with
          gate := { s.gate with
            first := false, waiting := false, signals := rest, stepping := decide (sig = .next), published := published } })

/-- R38, R170, R320, R323, R357–R359: the host's breakpoint edits are those of a set, and nothing but BREAKS changes; a stop at a
waiting gate stops the core at once, one before or during a step no later than after that step, and a second stop changes
nothing; a fault leaves the core Faulted, with one BreakState more in debug mode and no cycle or dot counted; a Faulted or
Stopped core takes no step, whatever else its state holds, and stays as it is. The stop of a running step is decision D42, and
how it is recorded is log entry 10; what a fault leaves is decision D15, log entry 11; that an edit acts where no gate waits
too is log entry 9. -/
def Obligations.HostOperationsAndHaltedCore : Prop :=
  (∀ (a b : Word) (s : State),
    (b ∈ hostListBreaks (hostAddBreak a s) ↔ b = a ∨ b ∈ hostListBreaks s) ∧
    (b ∈ hostListBreaks (hostRemoveBreak a s) ↔ b ≠ a ∧ b ∈ hostListBreaks s) ∧
    hostListBreaks (hostClearBreaks s) = [] ∧
    hostAddBreak a s = { s with gate := { s.gate with breaks := (hostAddBreak a s).gate.breaks } } ∧
    hostRemoveBreak a s = { s with gate := { s.gate with breaks := (hostRemoveBreak a s).gate.breaks } } ∧
    hostClearBreaks s = { s with gate := { s.gate with breaks := (hostClearBreaks s).gate.breaks } }) ∧
  (∀ s : State, s.status = .running →
    (s.gate.waiting = true → (hostStop s).status = .stopped) ∧
    (∀ t, step (hostStop s) = .next t → t.status = .stopped) ∧
    hostStop (hostStop s) = hostStop s) ∧
  (∀ (s t : State) (kind : FaultKind), s.goes = true → step s = .fault (.raised kind t) →
    t.status = .faulted kind ∧ t.cycles = s.cycles ∧ t.odd = s.odd ∧ t.ppu.position = s.ppu.position ∧
    t.gate = { s.gate with
      first := false,
      published := if s.gate.mode = .debug then ⟨t.pc, some kind⟩ :: s.gate.published else s.gate.published }) ∧
  ∀ s : State,
    (∀ kind, s.status = .faulted kind → step s = .fault (.raised kind s)) ∧ (s.status = .stopped → step s = .refused .stopped)

/-- Two memories in canonical form with the same bytes are the same data: the list form of a memory holds nothing but its
bytes. The form is the model's own, log entry 2. -/
def Obligations.CanonicalMemoriesAreEqual : Prop :=
  ∀ (size : Nat) (m n : Memory), Memory.wf size m = true → Memory.wf size n = true →
    (∀ a < size, m.read a = n.read a) → m = n
end

