-- ==== Sys2Proof/Laws/Decode.lean ====
section
/-! SUPPORT. The small lemmas of the decoder: the two bytes of a word, and each legal entry of the opcode table. -/

namespace Sys2Proof

@[simp] theorem lowByte_mkWord (lo hi : Byte) : lowByte (mkWord lo hi) = lo := by
  ext i hi
  simp only [lowByte, mkWord, BitVec.getElem_setWidth, BitVec.getLsbD_append, BitVec.getLsbD_eq_getElem hi]
  simp [hi]

@[simp] theorem highByte_mkWord (lo hi : Byte) : highByte (mkWord lo hi) = hi := by
  ext i h
  simp only [highByte, mkWord, BitVec.getElem_setWidth, BitVec.getLsbD_ushiftRight, BitVec.getLsbD_append]
  simp [h]

@[simp] theorem mkWord_lowByte_highByte (w : Word) : mkWord (lowByte w) (highByte w) = w := by
  apply BitVec.eq_of_getLsbD_eq
  intro i h
  simp only [mkWord, lowByte, highByte, BitVec.getLsbD_append, BitVec.getLsbD_setWidth, BitVec.getLsbD_ushiftRight]
  by_cases h8 : i < 8
  · simp [h8]
  · simp [h8, show i - 8 < 8 by omega, show 8 + (i - 8) = i by omega]

/-- A word is its high byte times 256 plus its low byte (00_scope.md R8). -/
theorem mkWord_toNat (lo hi : Byte) : (mkWord lo hi).toNat = 256 * hi.toNat + lo.toNat := by
  have := lo.isLt
  simp only [mkWord, BitVec.toNat_append]
  rw [Nat.shiftLeft_eq, Nat.mul_comm, ← Nat.two_pow_add_eq_or_of_lt (by simpa using this)]

@[simp] theorem opcodeTable_00 : opcodeTable 0x00 = some (.f1 .brk) := rfl
@[simp] theorem opcodeTable_01 : opcodeTable 0x01 = some (.f2 .oraIndX) := rfl
@[simp] theorem opcodeTable_05 : opcodeTable 0x05 = some (.f2 .oraZp) := rfl
@[simp] theorem opcodeTable_06 : opcodeTable 0x06 = some (.f2 .aslZp) := rfl
@[simp] theorem opcodeTable_08 : opcodeTable 0x08 = some (.f1 .php) := rfl
@[simp] theorem opcodeTable_09 : opcodeTable 0x09 = some (.f2 .oraImm) := rfl
@[simp] theorem opcodeTable_0A : opcodeTable 0x0A = some (.f1 .aslAcc) := rfl
@[simp] theorem opcodeTable_0D : opcodeTable 0x0D = some (.f3 .oraAbs) := rfl
@[simp] theorem opcodeTable_0E : opcodeTable 0x0E = some (.f3 .aslAbs) := rfl
@[simp] theorem opcodeTable_10 : opcodeTable 0x10 = some (.f2 .bpl) := rfl
@[simp] theorem opcodeTable_11 : opcodeTable 0x11 = some (.f2 .oraIndY) := rfl
@[simp] theorem opcodeTable_15 : opcodeTable 0x15 = some (.f2 .oraZpX) := rfl
@[simp] theorem opcodeTable_16 : opcodeTable 0x16 = some (.f2 .aslZpX) := rfl
@[simp] theorem opcodeTable_18 : opcodeTable 0x18 = some (.f1 .clc) := rfl
@[simp] theorem opcodeTable_19 : opcodeTable 0x19 = some (.f3 .oraAbsY) := rfl
@[simp] theorem opcodeTable_1D : opcodeTable 0x1D = some (.f3 .oraAbsX) := rfl
@[simp] theorem opcodeTable_1E : opcodeTable 0x1E = some (.f3 .aslAbsX) := rfl
@[simp] theorem opcodeTable_20 : opcodeTable 0x20 = some (.f3 .jsr) := rfl
@[simp] theorem opcodeTable_21 : opcodeTable 0x21 = some (.f2 .andIndX) := rfl
@[simp] theorem opcodeTable_24 : opcodeTable 0x24 = some (.f2 .bitZp) := rfl
@[simp] theorem opcodeTable_25 : opcodeTable 0x25 = some (.f2 .andZp) := rfl
@[simp] theorem opcodeTable_26 : opcodeTable 0x26 = some (.f2 .rolZp) := rfl
@[simp] theorem opcodeTable_28 : opcodeTable 0x28 = some (.f1 .plp) := rfl
@[simp] theorem opcodeTable_29 : opcodeTable 0x29 = some (.f2 .andImm) := rfl
@[simp] theorem opcodeTable_2A : opcodeTable 0x2A = some (.f1 .rolAcc) := rfl
@[simp] theorem opcodeTable_2C : opcodeTable 0x2C = some (.f3 .bitAbs) := rfl
@[simp] theorem opcodeTable_2D : opcodeTable 0x2D = some (.f3 .andAbs) := rfl
@[simp] theorem opcodeTable_2E : opcodeTable 0x2E = some (.f3 .rolAbs) := rfl
@[simp] theorem opcodeTable_30 : opcodeTable 0x30 = some (.f2 .bmi) := rfl
@[simp] theorem opcodeTable_31 : opcodeTable 0x31 = some (.f2 .andIndY) := rfl
@[simp] theorem opcodeTable_35 : opcodeTable 0x35 = some (.f2 .andZpX) := rfl
@[simp] theorem opcodeTable_36 : opcodeTable 0x36 = some (.f2 .rolZpX) := rfl
@[simp] theorem opcodeTable_38 : opcodeTable 0x38 = some (.f1 .sec) := rfl
@[simp] theorem opcodeTable_39 : opcodeTable 0x39 = some (.f3 .andAbsY) := rfl
@[simp] theorem opcodeTable_3D : opcodeTable 0x3D = some (.f3 .andAbsX) := rfl
@[simp] theorem opcodeTable_3E : opcodeTable 0x3E = some (.f3 .rolAbsX) := rfl
@[simp] theorem opcodeTable_40 : opcodeTable 0x40 = some (.f1 .rti) := rfl
@[simp] theorem opcodeTable_41 : opcodeTable 0x41 = some (.f2 .eorIndX) := rfl
@[simp] theorem opcodeTable_45 : opcodeTable 0x45 = some (.f2 .eorZp) := rfl
@[simp] theorem opcodeTable_46 : opcodeTable 0x46 = some (.f2 .lsrZp) := rfl
@[simp] theorem opcodeTable_48 : opcodeTable 0x48 = some (.f1 .pha) := rfl
@[simp] theorem opcodeTable_49 : opcodeTable 0x49 = some (.f2 .eorImm) := rfl
@[simp] theorem opcodeTable_4A : opcodeTable 0x4A = some (.f1 .lsrAcc) := rfl
@[simp] theorem opcodeTable_4C : opcodeTable 0x4C = some (.f3 .jmpAbs) := rfl
@[simp] theorem opcodeTable_4D : opcodeTable 0x4D = some (.f3 .eorAbs) := rfl
@[simp] theorem opcodeTable_4E : opcodeTable 0x4E = some (.f3 .lsrAbs) := rfl
@[simp] theorem opcodeTable_50 : opcodeTable 0x50 = some (.f2 .bvc) := rfl
@[simp] theorem opcodeTable_51 : opcodeTable 0x51 = some (.f2 .eorIndY) := rfl
@[simp] theorem opcodeTable_55 : opcodeTable 0x55 = some (.f2 .eorZpX) := rfl
@[simp] theorem opcodeTable_56 : opcodeTable 0x56 = some (.f2 .lsrZpX) := rfl
@[simp] theorem opcodeTable_58 : opcodeTable 0x58 = some (.f1 .cli) := rfl
@[simp] theorem opcodeTable_59 : opcodeTable 0x59 = some (.f3 .eorAbsY) := rfl
@[simp] theorem opcodeTable_5D : opcodeTable 0x5D = some (.f3 .eorAbsX) := rfl
@[simp] theorem opcodeTable_5E : opcodeTable 0x5E = some (.f3 .lsrAbsX) := rfl
@[simp] theorem opcodeTable_60 : opcodeTable 0x60 = some (.f1 .rts) := rfl
@[simp] theorem opcodeTable_61 : opcodeTable 0x61 = some (.f2 .adcIndX) := rfl
@[simp] theorem opcodeTable_65 : opcodeTable 0x65 = some (.f2 .adcZp) := rfl
@[simp] theorem opcodeTable_66 : opcodeTable 0x66 = some (.f2 .rorZp) := rfl
@[simp] theorem opcodeTable_68 : opcodeTable 0x68 = some (.f1 .pla) := rfl
@[simp] theorem opcodeTable_69 : opcodeTable 0x69 = some (.f2 .adcImm) := rfl
@[simp] theorem opcodeTable_6A : opcodeTable 0x6A = some (.f1 .rorAcc) := rfl
@[simp] theorem opcodeTable_6C : opcodeTable 0x6C = some (.f3 .jmpInd) := rfl
@[simp] theorem opcodeTable_6D : opcodeTable 0x6D = some (.f3 .adcAbs) := rfl
@[simp] theorem opcodeTable_6E : opcodeTable 0x6E = some (.f3 .rorAbs) := rfl
@[simp] theorem opcodeTable_70 : opcodeTable 0x70 = some (.f2 .bvs) := rfl
@[simp] theorem opcodeTable_71 : opcodeTable 0x71 = some (.f2 .adcIndY) := rfl
@[simp] theorem opcodeTable_75 : opcodeTable 0x75 = some (.f2 .adcZpX) := rfl
@[simp] theorem opcodeTable_76 : opcodeTable 0x76 = some (.f2 .rorZpX) := rfl
@[simp] theorem opcodeTable_78 : opcodeTable 0x78 = some (.f1 .sei) := rfl
@[simp] theorem opcodeTable_79 : opcodeTable 0x79 = some (.f3 .adcAbsY) := rfl
@[simp] theorem opcodeTable_7D : opcodeTable 0x7D = some (.f3 .adcAbsX) := rfl
@[simp] theorem opcodeTable_7E : opcodeTable 0x7E = some (.f3 .rorAbsX) := rfl
@[simp] theorem opcodeTable_81 : opcodeTable 0x81 = some (.f2 .staIndX) := rfl
@[simp] theorem opcodeTable_84 : opcodeTable 0x84 = some (.f2 .styZp) := rfl
@[simp] theorem opcodeTable_85 : opcodeTable 0x85 = some (.f2 .staZp) := rfl
@[simp] theorem opcodeTable_86 : opcodeTable 0x86 = some (.f2 .stxZp) := rfl
@[simp] theorem opcodeTable_88 : opcodeTable 0x88 = some (.f1 .dey) := rfl
@[simp] theorem opcodeTable_8A : opcodeTable 0x8A = some (.f1 .txa) := rfl
@[simp] theorem opcodeTable_8C : opcodeTable 0x8C = some (.f3 .styAbs) := rfl
@[simp] theorem opcodeTable_8D : opcodeTable 0x8D = some (.f3 .staAbs) := rfl
@[simp] theorem opcodeTable_8E : opcodeTable 0x8E = some (.f3 .stxAbs) := rfl
@[simp] theorem opcodeTable_90 : opcodeTable 0x90 = some (.f2 .bcc) := rfl
@[simp] theorem opcodeTable_91 : opcodeTable 0x91 = some (.f2 .staIndY) := rfl
@[simp] theorem opcodeTable_94 : opcodeTable 0x94 = some (.f2 .styZpX) := rfl
@[simp] theorem opcodeTable_95 : opcodeTable 0x95 = some (.f2 .staZpX) := rfl
@[simp] theorem opcodeTable_96 : opcodeTable 0x96 = some (.f2 .stxZpY) := rfl
@[simp] theorem opcodeTable_98 : opcodeTable 0x98 = some (.f1 .tya) := rfl
@[simp] theorem opcodeTable_99 : opcodeTable 0x99 = some (.f3 .staAbsY) := rfl
@[simp] theorem opcodeTable_9A : opcodeTable 0x9A = some (.f1 .txs) := rfl
@[simp] theorem opcodeTable_9D : opcodeTable 0x9D = some (.f3 .staAbsX) := rfl
@[simp] theorem opcodeTable_A0 : opcodeTable 0xA0 = some (.f2 .ldyImm) := rfl
@[simp] theorem opcodeTable_A1 : opcodeTable 0xA1 = some (.f2 .ldaIndX) := rfl
@[simp] theorem opcodeTable_A2 : opcodeTable 0xA2 = some (.f2 .ldxImm) := rfl
@[simp] theorem opcodeTable_A4 : opcodeTable 0xA4 = some (.f2 .ldyZp) := rfl
@[simp] theorem opcodeTable_A5 : opcodeTable 0xA5 = some (.f2 .ldaZp) := rfl
@[simp] theorem opcodeTable_A6 : opcodeTable 0xA6 = some (.f2 .ldxZp) := rfl
@[simp] theorem opcodeTable_A8 : opcodeTable 0xA8 = some (.f1 .tay) := rfl
@[simp] theorem opcodeTable_A9 : opcodeTable 0xA9 = some (.f2 .ldaImm) := rfl
@[simp] theorem opcodeTable_AA : opcodeTable 0xAA = some (.f1 .tax) := rfl
@[simp] theorem opcodeTable_AC : opcodeTable 0xAC = some (.f3 .ldyAbs) := rfl
@[simp] theorem opcodeTable_AD : opcodeTable 0xAD = some (.f3 .ldaAbs) := rfl
@[simp] theorem opcodeTable_AE : opcodeTable 0xAE = some (.f3 .ldxAbs) := rfl
@[simp] theorem opcodeTable_B0 : opcodeTable 0xB0 = some (.f2 .bcs) := rfl
@[simp] theorem opcodeTable_B1 : opcodeTable 0xB1 = some (.f2 .ldaIndY) := rfl
@[simp] theorem opcodeTable_B4 : opcodeTable 0xB4 = some (.f2 .ldyZpX) := rfl
@[simp] theorem opcodeTable_B5 : opcodeTable 0xB5 = some (.f2 .ldaZpX) := rfl
@[simp] theorem opcodeTable_B6 : opcodeTable 0xB6 = some (.f2 .ldxZpY) := rfl
@[simp] theorem opcodeTable_B8 : opcodeTable 0xB8 = some (.f1 .clv) := rfl
@[simp] theorem opcodeTable_B9 : opcodeTable 0xB9 = some (.f3 .ldaAbsY) := rfl
@[simp] theorem opcodeTable_BA : opcodeTable 0xBA = some (.f1 .tsx) := rfl
@[simp] theorem opcodeTable_BC : opcodeTable 0xBC = some (.f3 .ldyAbsX) := rfl
@[simp] theorem opcodeTable_BD : opcodeTable 0xBD = some (.f3 .ldaAbsX) := rfl
@[simp] theorem opcodeTable_BE : opcodeTable 0xBE = some (.f3 .ldxAbsY) := rfl
@[simp] theorem opcodeTable_C0 : opcodeTable 0xC0 = some (.f2 .cpyImm) := rfl
@[simp] theorem opcodeTable_C1 : opcodeTable 0xC1 = some (.f2 .cmpIndX) := rfl
@[simp] theorem opcodeTable_C4 : opcodeTable 0xC4 = some (.f2 .cpyZp) := rfl
@[simp] theorem opcodeTable_C5 : opcodeTable 0xC5 = some (.f2 .cmpZp) := rfl
@[simp] theorem opcodeTable_C6 : opcodeTable 0xC6 = some (.f2 .decZp) := rfl
@[simp] theorem opcodeTable_C8 : opcodeTable 0xC8 = some (.f1 .iny) := rfl
@[simp] theorem opcodeTable_C9 : opcodeTable 0xC9 = some (.f2 .cmpImm) := rfl
@[simp] theorem opcodeTable_CA : opcodeTable 0xCA = some (.f1 .dex) := rfl
@[simp] theorem opcodeTable_CC : opcodeTable 0xCC = some (.f3 .cpyAbs) := rfl
@[simp] theorem opcodeTable_CD : opcodeTable 0xCD = some (.f3 .cmpAbs) := rfl
@[simp] theorem opcodeTable_CE : opcodeTable 0xCE = some (.f3 .decAbs) := rfl
@[simp] theorem opcodeTable_D0 : opcodeTable 0xD0 = some (.f2 .bne) := rfl
@[simp] theorem opcodeTable_D1 : opcodeTable 0xD1 = some (.f2 .cmpIndY) := rfl
@[simp] theorem opcodeTable_D5 : opcodeTable 0xD5 = some (.f2 .cmpZpX) := rfl
@[simp] theorem opcodeTable_D6 : opcodeTable 0xD6 = some (.f2 .decZpX) := rfl
@[simp] theorem opcodeTable_D8 : opcodeTable 0xD8 = some (.f1 .cld) := rfl
@[simp] theorem opcodeTable_D9 : opcodeTable 0xD9 = some (.f3 .cmpAbsY) := rfl
@[simp] theorem opcodeTable_DD : opcodeTable 0xDD = some (.f3 .cmpAbsX) := rfl
@[simp] theorem opcodeTable_DE : opcodeTable 0xDE = some (.f3 .decAbsX) := rfl
@[simp] theorem opcodeTable_E0 : opcodeTable 0xE0 = some (.f2 .cpxImm) := rfl
@[simp] theorem opcodeTable_E1 : opcodeTable 0xE1 = some (.f2 .sbcIndX) := rfl
@[simp] theorem opcodeTable_E4 : opcodeTable 0xE4 = some (.f2 .cpxZp) := rfl
@[simp] theorem opcodeTable_E5 : opcodeTable 0xE5 = some (.f2 .sbcZp) := rfl
@[simp] theorem opcodeTable_E6 : opcodeTable 0xE6 = some (.f2 .incZp) := rfl
@[simp] theorem opcodeTable_E8 : opcodeTable 0xE8 = some (.f1 .inx) := rfl
@[simp] theorem opcodeTable_E9 : opcodeTable 0xE9 = some (.f2 .sbcImm) := rfl
@[simp] theorem opcodeTable_EA : opcodeTable 0xEA = some (.f1 .nop) := rfl
@[simp] theorem opcodeTable_EC : opcodeTable 0xEC = some (.f3 .cpxAbs) := rfl
@[simp] theorem opcodeTable_ED : opcodeTable 0xED = some (.f3 .sbcAbs) := rfl
@[simp] theorem opcodeTable_EE : opcodeTable 0xEE = some (.f3 .incAbs) := rfl
@[simp] theorem opcodeTable_F0 : opcodeTable 0xF0 = some (.f2 .beq) := rfl
@[simp] theorem opcodeTable_F1 : opcodeTable 0xF1 = some (.f2 .sbcIndY) := rfl
@[simp] theorem opcodeTable_F5 : opcodeTable 0xF5 = some (.f2 .sbcZpX) := rfl
@[simp] theorem opcodeTable_F6 : opcodeTable 0xF6 = some (.f2 .incZpX) := rfl
@[simp] theorem opcodeTable_F8 : opcodeTable 0xF8 = some (.f1 .sed) := rfl
@[simp] theorem opcodeTable_F9 : opcodeTable 0xF9 = some (.f3 .sbcAbsY) := rfl
@[simp] theorem opcodeTable_FD : opcodeTable 0xFD = some (.f3 .sbcAbsX) := rfl
@[simp] theorem opcodeTable_FE : opcodeTable 0xFE = some (.f3 .incAbsX) := rfl

end Sys2Proof
end

