-- ==== Sys2Proof/Laws/Memory.lean ====
section
/-! SUPPORT. The laws of a storage array: a read after a write, and that a write keeps the canonical form. -/

namespace Sys2Proof.Memory

@[simp] theorem read_nil (a : Nat) : read [] a = unlisted := rfl

theorem read_erase_same (m : Memory) (a : Nat) : (m.erase a).read a = unlisted := by
  induction m with
  | nil => rfl
  | cons c rest ih =>
    obtain ⟨k, e⟩ := c
    by_cases h : k = a
    · simpa [erase, h] using ih
    · simpa [erase, h, read] using ih

theorem read_erase_other (m : Memory) {a b : Nat} (hab : b ≠ a) : (m.erase a).read b = m.read b := by
  induction m with
  | nil => rfl
  | cons c rest ih =>
    obtain ⟨k, e⟩ := c
    by_cases h : k = a
    · subst h
      have : k ≠ b := fun hk => hab hk.symm
      simpa [erase, read, this] using ih
    · by_cases hb : k = b
      · subst hb
        simp [erase, hab, read]
      · simpa [erase, h, read, hb] using ih

theorem read_insert_same (m : Memory) (a : Nat) (d : Byte) (h : ∀ c ∈ m, c.1 ≠ a) : (m.insert a d).read a = d := by
  induction m with
  | nil => simp [insert, read]
  | cons c rest ih =>
    obtain ⟨k, e⟩ := c
    have hk : k ≠ a := h (k, e) (by simp)
    by_cases hlt : a < k
    · simp [insert, hlt, read]
    · simp only [insert, hlt, if_false, read, hk]
      exact ih fun c hc => h c (by simp [hc])

theorem read_insert_other (m : Memory) (a : Nat) (d : Byte) {b : Nat} (hab : b ≠ a) :
    (m.insert a d).read b = m.read b := by
  induction m with
  | nil => simp [insert, read, Ne.symm hab]
  | cons c rest ih =>
    obtain ⟨k, e⟩ := c
    by_cases hlt : a < k
    · simp [insert, hlt, read, Ne.symm hab]
    · simp [insert, hlt, read, ih]

theorem erase_avoids (m : Memory) (a : Nat) : ∀ c ∈ m.erase a, c.1 ≠ a := by
  intro c hc
  simpa [erase] using (List.mem_filter.mp hc).2

/-- What is written at an address is read there. -/
@[simp] theorem read_write_same (m : Memory) (a : Nat) (d : Byte) : (m.write a d).read a = d := by
  by_cases h : d = unlisted
  · simp [write, h, read_erase_same]
  · simpa [write, h] using read_insert_same _ a d (erase_avoids m a)

/-- A write leaves every other address alone. -/
theorem read_write_other (m : Memory) (a : Nat) (d : Byte) {b : Nat} (hab : b ≠ a) : (m.write a d).read b = m.read b := by
  by_cases h : d = unlisted
  · simp [write, h, read_erase_other m hab]
  · simp [write, h, read_insert_other _ a d hab, read_erase_other m hab]

/-- A read after a write, in one equation. -/
theorem read_write (m : Memory) (a b : Nat) (d : Byte) : (m.write a d).read b = if b = a then d else m.read b := by
  by_cases h : b = a
  · simp [h]
  · simp [h, read_write_other m a d h]

/-- The rising order, as a fact about all pairs. -/
theorem rising_iff (size : Nat) (m : Memory) :
    m.rising size = true ↔ m.Pairwise (fun c e => c.1 < e.1) ∧ ∀ c ∈ m, c.1 < size := by
  induction m with
  | nil => simp [rising]
  | cons c rest ih =>
    obtain ⟨a, d⟩ := c
    cases rest with
    | nil => simp [rising]
    | cons c' rest =>
      obtain ⟨b, e⟩ := c'
      simp only [rising, Bool.and_eq_true, decide_eq_true_eq, ih]
      constructor
      · rintro ⟨hab, hp, hs⟩
        have hb := hs (b, e) (by simp)
        refine ⟨List.pairwise_cons.mpr ⟨?_, hp⟩, ?_⟩
        · intro x hx
          rcases List.mem_cons.mp hx with rfl | hx
          · exact hab
          · exact lt_trans hab ((List.pairwise_cons.mp hp).1 x hx)
        · intro x hx
          rcases List.mem_cons.mp hx with rfl | hx
          · exact lt_trans hab hb
          · exact hs x hx
      · rintro ⟨hp, hs⟩
        have hp' := List.pairwise_cons.mp hp
        exact ⟨hp'.1 (b, e) (by simp), hp'.2, fun x hx => hs x (List.mem_cons_of_mem _ hx)⟩

/-- The canonical form, as facts about the cells. -/
theorem wf_iff (size : Nat) (m : Memory) :
    wf size m = true ↔ m.Pairwise (fun c e => c.1 < e.1) ∧ (∀ c ∈ m, c.1 < size) ∧ ∀ c ∈ m, c.2 ≠ unlisted := by
  simp [wf, rising_iff, and_assoc]

@[simp] theorem wf_nil (size : Nat) : wf size [] = true := rfl

theorem mem_insert {m : Memory} {a : Nat} {d : Byte} {c : Host.Cell} (h : c ∈ m.insert a d) : c = (a, d) ∨ c ∈ m := by
  induction m with
  | nil => simpa [insert] using h
  | cons c' rest ih =>
    obtain ⟨k, e⟩ := c'
    by_cases hlt : a < k
    · simpa [insert, hlt] using h
    · simp only [insert, hlt, if_false, List.mem_cons] at h ⊢
      rcases h with h | h
      · exact .inr (.inl h)
      · rcases ih h with h | h
        · exact .inl h
        · exact .inr (.inr h)

theorem pairwise_insert {m : Memory} (a : Nat) (d : Byte) (hp : m.Pairwise fun c e => c.1 < e.1)
    (hne : ∀ c ∈ m, c.1 ≠ a) : (m.insert a d).Pairwise fun c e => c.1 < e.1 := by
  induction m with
  | nil => simp [insert]
  | cons c rest ih =>
    obtain ⟨k, e⟩ := c
    have hp' := List.pairwise_cons.mp hp
    by_cases hlt : a < k
    · simp only [insert, hlt, if_true]
      refine List.pairwise_cons.mpr ⟨?_, hp⟩
      intro x hx
      rcases List.mem_cons.mp hx with rfl | hx
      · exact hlt
      · exact lt_trans hlt (hp'.1 x hx)
    · simp only [insert, hlt, if_false]
      refine List.pairwise_cons.mpr ⟨?_, ih hp'.2 fun c hc => hne c (by simp [hc])⟩
      intro x hx
      rcases mem_insert hx with rfl | hx
      · exact lt_of_le_of_ne (not_lt.mp hlt) (hne (k, e) (by simp))
      · exact hp'.1 x hx

/-- A write at an address of the array keeps the canonical form. -/
theorem write_wf {size : Nat} {m : Memory} {a : Nat} (d : Byte) (h : wf size m = true) (ha : a < size) :
    wf size (m.write a d) = true := by
  rw [wf_iff] at h ⊢
  obtain ⟨hp, hs, hn⟩ := h
  have hpe : (m.erase a).Pairwise fun c e => c.1 < e.1 := hp.sublist List.filter_sublist
  have hse : ∀ c ∈ m.erase a, c ∈ m := fun c hc => (List.mem_filter.mp hc).1
  by_cases hd : d = unlisted
  · simp only [write, hd, if_true]
    exact ⟨hpe, fun c hc => hs c (hse c hc), fun c hc => hn c (hse c hc)⟩
  · simp only [write, hd, if_false]
    refine ⟨pairwise_insert a d hpe (erase_avoids m a), ?_, ?_⟩
    · intro c hc
      rcases mem_insert hc with rfl | hc
      · exact ha
      · exact hs c (hse c hc)
    · intro c hc
      rcases mem_insert hc with rfl | hc
      · exact hd
      · exact hn c (hse c hc)

end Sys2Proof.Memory
end

