-- ==== Sys2Proof/Laws/State.lean ====
section
/-! SUPPORT. What each field of the state is after each update: one lemma per field per update, true by rfl. -/

namespace Sys2Proof.Machine.State

variable (s : State)

@[simp] theorem setA_a (v : Byte) : (s.setA v).a = v := rfl
@[simp] theorem setA_x (v : Byte) : (s.setA v).x = s.x := rfl
@[simp] theorem setA_y (v : Byte) : (s.setA v).y = s.y := rfl
@[simp] theorem setA_sp (v : Byte) : (s.setA v).sp = s.sp := rfl
@[simp] theorem setA_pc (v : Byte) : (s.setA v).pc = s.pc := rfl
@[simp] theorem setA_flags (v : Byte) : (s.setA v).flags = s.flags := rfl
@[simp] theorem setA_nmiLatch (v : Byte) : (s.setA v).nmiLatch = s.nmiLatch := rfl
@[simp] theorem setA_irqLine (v : Byte) : (s.setA v).irqLine = s.irqLine := rfl
@[simp] theorem setA_odd (v : Byte) : (s.setA v).odd = s.odd := rfl
@[simp] theorem setA_cycles (v : Byte) : (s.setA v).cycles = s.cycles := rfl
@[simp] theorem setA_stepCycles (v : Byte) : (s.setA v).stepCycles = s.stepCycles := rfl
@[simp] theorem setA_status (v : Byte) : (s.setA v).status = s.status := rfl
@[simp] theorem setA_ram (v : Byte) : (s.setA v).ram = s.ram := rfl
@[simp] theorem setA_ppu (v : Byte) : (s.setA v).ppu = s.ppu := rfl
@[simp] theorem setA_pad (v : Byte) : (s.setA v).pad = s.pad := rfl
@[simp] theorem setA_cart (v : Byte) : (s.setA v).cart = s.cart := rfl
@[simp] theorem setA_mmc1 (v : Byte) : (s.setA v).mmc1 = s.mmc1 := rfl
@[simp] theorem setA_cartRam (v : Byte) : (s.setA v).cartRam = s.cartRam := rfl
@[simp] theorem setA_chrRam (v : Byte) : (s.setA v).chrRam = s.chrRam := rfl
@[simp] theorem setA_gate (v : Byte) : (s.setA v).gate = s.gate := rfl
@[simp] theorem setA_draws (v : Byte) : (s.setA v).draws = s.draws := rfl
@[simp] theorem setX_a (v : Byte) : (s.setX v).a = s.a := rfl
@[simp] theorem setX_x (v : Byte) : (s.setX v).x = v := rfl
@[simp] theorem setX_y (v : Byte) : (s.setX v).y = s.y := rfl
@[simp] theorem setX_sp (v : Byte) : (s.setX v).sp = s.sp := rfl
@[simp] theorem setX_pc (v : Byte) : (s.setX v).pc = s.pc := rfl
@[simp] theorem setX_flags (v : Byte) : (s.setX v).flags = s.flags := rfl
@[simp] theorem setX_nmiLatch (v : Byte) : (s.setX v).nmiLatch = s.nmiLatch := rfl
@[simp] theorem setX_irqLine (v : Byte) : (s.setX v).irqLine = s.irqLine := rfl
@[simp] theorem setX_odd (v : Byte) : (s.setX v).odd = s.odd := rfl
@[simp] theorem setX_cycles (v : Byte) : (s.setX v).cycles = s.cycles := rfl
@[simp] theorem setX_stepCycles (v : Byte) : (s.setX v).stepCycles = s.stepCycles := rfl
@[simp] theorem setX_status (v : Byte) : (s.setX v).status = s.status := rfl
@[simp] theorem setX_ram (v : Byte) : (s.setX v).ram = s.ram := rfl
@[simp] theorem setX_ppu (v : Byte) : (s.setX v).ppu = s.ppu := rfl
@[simp] theorem setX_pad (v : Byte) : (s.setX v).pad = s.pad := rfl
@[simp] theorem setX_cart (v : Byte) : (s.setX v).cart = s.cart := rfl
@[simp] theorem setX_mmc1 (v : Byte) : (s.setX v).mmc1 = s.mmc1 := rfl
@[simp] theorem setX_cartRam (v : Byte) : (s.setX v).cartRam = s.cartRam := rfl
@[simp] theorem setX_chrRam (v : Byte) : (s.setX v).chrRam = s.chrRam := rfl
@[simp] theorem setX_gate (v : Byte) : (s.setX v).gate = s.gate := rfl
@[simp] theorem setX_draws (v : Byte) : (s.setX v).draws = s.draws := rfl
@[simp] theorem setY_a (v : Byte) : (s.setY v).a = s.a := rfl
@[simp] theorem setY_x (v : Byte) : (s.setY v).x = s.x := rfl
@[simp] theorem setY_y (v : Byte) : (s.setY v).y = v := rfl
@[simp] theorem setY_sp (v : Byte) : (s.setY v).sp = s.sp := rfl
@[simp] theorem setY_pc (v : Byte) : (s.setY v).pc = s.pc := rfl
@[simp] theorem setY_flags (v : Byte) : (s.setY v).flags = s.flags := rfl
@[simp] theorem setY_nmiLatch (v : Byte) : (s.setY v).nmiLatch = s.nmiLatch := rfl
@[simp] theorem setY_irqLine (v : Byte) : (s.setY v).irqLine = s.irqLine := rfl
@[simp] theorem setY_odd (v : Byte) : (s.setY v).odd = s.odd := rfl
@[simp] theorem setY_cycles (v : Byte) : (s.setY v).cycles = s.cycles := rfl
@[simp] theorem setY_stepCycles (v : Byte) : (s.setY v).stepCycles = s.stepCycles := rfl
@[simp] theorem setY_status (v : Byte) : (s.setY v).status = s.status := rfl
@[simp] theorem setY_ram (v : Byte) : (s.setY v).ram = s.ram := rfl
@[simp] theorem setY_ppu (v : Byte) : (s.setY v).ppu = s.ppu := rfl
@[simp] theorem setY_pad (v : Byte) : (s.setY v).pad = s.pad := rfl
@[simp] theorem setY_cart (v : Byte) : (s.setY v).cart = s.cart := rfl
@[simp] theorem setY_mmc1 (v : Byte) : (s.setY v).mmc1 = s.mmc1 := rfl
@[simp] theorem setY_cartRam (v : Byte) : (s.setY v).cartRam = s.cartRam := rfl
@[simp] theorem setY_chrRam (v : Byte) : (s.setY v).chrRam = s.chrRam := rfl
@[simp] theorem setY_gate (v : Byte) : (s.setY v).gate = s.gate := rfl
@[simp] theorem setY_draws (v : Byte) : (s.setY v).draws = s.draws := rfl
@[simp] theorem setSp_a (v : Byte) : (s.setSp v).a = s.a := rfl
@[simp] theorem setSp_x (v : Byte) : (s.setSp v).x = s.x := rfl
@[simp] theorem setSp_y (v : Byte) : (s.setSp v).y = s.y := rfl
@[simp] theorem setSp_sp (v : Byte) : (s.setSp v).sp = v := rfl
@[simp] theorem setSp_pc (v : Byte) : (s.setSp v).pc = s.pc := rfl
@[simp] theorem setSp_flags (v : Byte) : (s.setSp v).flags = s.flags := rfl
@[simp] theorem setSp_nmiLatch (v : Byte) : (s.setSp v).nmiLatch = s.nmiLatch := rfl
@[simp] theorem setSp_irqLine (v : Byte) : (s.setSp v).irqLine = s.irqLine := rfl
@[simp] theorem setSp_odd (v : Byte) : (s.setSp v).odd = s.odd := rfl
@[simp] theorem setSp_cycles (v : Byte) : (s.setSp v).cycles = s.cycles := rfl
@[simp] theorem setSp_stepCycles (v : Byte) : (s.setSp v).stepCycles = s.stepCycles := rfl
@[simp] theorem setSp_status (v : Byte) : (s.setSp v).status = s.status := rfl
@[simp] theorem setSp_ram (v : Byte) : (s.setSp v).ram = s.ram := rfl
@[simp] theorem setSp_ppu (v : Byte) : (s.setSp v).ppu = s.ppu := rfl
@[simp] theorem setSp_pad (v : Byte) : (s.setSp v).pad = s.pad := rfl
@[simp] theorem setSp_cart (v : Byte) : (s.setSp v).cart = s.cart := rfl
@[simp] theorem setSp_mmc1 (v : Byte) : (s.setSp v).mmc1 = s.mmc1 := rfl
@[simp] theorem setSp_cartRam (v : Byte) : (s.setSp v).cartRam = s.cartRam := rfl
@[simp] theorem setSp_chrRam (v : Byte) : (s.setSp v).chrRam = s.chrRam := rfl
@[simp] theorem setSp_gate (v : Byte) : (s.setSp v).gate = s.gate := rfl
@[simp] theorem setSp_draws (v : Byte) : (s.setSp v).draws = s.draws := rfl
@[simp] theorem setPc_a (v : Word) : (s.setPc v).a = s.a := rfl
@[simp] theorem setPc_x (v : Word) : (s.setPc v).x = s.x := rfl
@[simp] theorem setPc_y (v : Word) : (s.setPc v).y = s.y := rfl
@[simp] theorem setPc_sp (v : Word) : (s.setPc v).sp = s.sp := rfl
@[simp] theorem setPc_pc (v : Word) : (s.setPc v).pc = v := rfl
@[simp] theorem setPc_flags (v : Word) : (s.setPc v).flags = s.flags := rfl
@[simp] theorem setPc_nmiLatch (v : Word) : (s.setPc v).nmiLatch = s.nmiLatch := rfl
@[simp] theorem setPc_irqLine (v : Word) : (s.setPc v).irqLine = s.irqLine := rfl
@[simp] theorem setPc_odd (v : Word) : (s.setPc v).odd = s.odd := rfl
@[simp] theorem setPc_cycles (v : Word) : (s.setPc v).cycles = s.cycles := rfl
@[simp] theorem setPc_stepCycles (v : Word) : (s.setPc v).stepCycles = s.stepCycles := rfl
@[simp] theorem setPc_status (v : Word) : (s.setPc v).status = s.status := rfl
@[simp] theorem setPc_ram (v : Word) : (s.setPc v).ram = s.ram := rfl
@[simp] theorem setPc_ppu (v : Word) : (s.setPc v).ppu = s.ppu := rfl
@[simp] theorem setPc_pad (v : Word) : (s.setPc v).pad = s.pad := rfl
@[simp] theorem setPc_cart (v : Word) : (s.setPc v).cart = s.cart := rfl
@[simp] theorem setPc_mmc1 (v : Word) : (s.setPc v).mmc1 = s.mmc1 := rfl
@[simp] theorem setPc_cartRam (v : Word) : (s.setPc v).cartRam = s.cartRam := rfl
@[simp] theorem setPc_chrRam (v : Word) : (s.setPc v).chrRam = s.chrRam := rfl
@[simp] theorem setPc_gate (v : Word) : (s.setPc v).gate = s.gate := rfl
@[simp] theorem setPc_draws (v : Word) : (s.setPc v).draws = s.draws := rfl
@[simp] theorem setFlags_a (v : Flags) : (s.setFlags v).a = s.a := rfl
@[simp] theorem setFlags_x (v : Flags) : (s.setFlags v).x = s.x := rfl
@[simp] theorem setFlags_y (v : Flags) : (s.setFlags v).y = s.y := rfl
@[simp] theorem setFlags_sp (v : Flags) : (s.setFlags v).sp = s.sp := rfl
@[simp] theorem setFlags_pc (v : Flags) : (s.setFlags v).pc = s.pc := rfl
@[simp] theorem setFlags_flags (v : Flags) : (s.setFlags v).flags = v := rfl
@[simp] theorem setFlags_nmiLatch (v : Flags) : (s.setFlags v).nmiLatch = s.nmiLatch := rfl
@[simp] theorem setFlags_irqLine (v : Flags) : (s.setFlags v).irqLine = s.irqLine := rfl
@[simp] theorem setFlags_odd (v : Flags) : (s.setFlags v).odd = s.odd := rfl
@[simp] theorem setFlags_cycles (v : Flags) : (s.setFlags v).cycles = s.cycles := rfl
@[simp] theorem setFlags_stepCycles (v : Flags) : (s.setFlags v).stepCycles = s.stepCycles := rfl
@[simp] theorem setFlags_status (v : Flags) : (s.setFlags v).status = s.status := rfl
@[simp] theorem setFlags_ram (v : Flags) : (s.setFlags v).ram = s.ram := rfl
@[simp] theorem setFlags_ppu (v : Flags) : (s.setFlags v).ppu = s.ppu := rfl
@[simp] theorem setFlags_pad (v : Flags) : (s.setFlags v).pad = s.pad := rfl
@[simp] theorem setFlags_cart (v : Flags) : (s.setFlags v).cart = s.cart := rfl
@[simp] theorem setFlags_mmc1 (v : Flags) : (s.setFlags v).mmc1 = s.mmc1 := rfl
@[simp] theorem setFlags_cartRam (v : Flags) : (s.setFlags v).cartRam = s.cartRam := rfl
@[simp] theorem setFlags_chrRam (v : Flags) : (s.setFlags v).chrRam = s.chrRam := rfl
@[simp] theorem setFlags_gate (v : Flags) : (s.setFlags v).gate = s.gate := rfl
@[simp] theorem setFlags_draws (v : Flags) : (s.setFlags v).draws = s.draws := rfl
@[simp] theorem setNmiLatch_a (v : Bool) : (s.setNmiLatch v).a = s.a := rfl
@[simp] theorem setNmiLatch_x (v : Bool) : (s.setNmiLatch v).x = s.x := rfl
@[simp] theorem setNmiLatch_y (v : Bool) : (s.setNmiLatch v).y = s.y := rfl
@[simp] theorem setNmiLatch_sp (v : Bool) : (s.setNmiLatch v).sp = s.sp := rfl
@[simp] theorem setNmiLatch_pc (v : Bool) : (s.setNmiLatch v).pc = s.pc := rfl
@[simp] theorem setNmiLatch_flags (v : Bool) : (s.setNmiLatch v).flags = s.flags := rfl
@[simp] theorem setNmiLatch_nmiLatch (v : Bool) : (s.setNmiLatch v).nmiLatch = v := rfl
@[simp] theorem setNmiLatch_irqLine (v : Bool) : (s.setNmiLatch v).irqLine = s.irqLine := rfl
@[simp] theorem setNmiLatch_odd (v : Bool) : (s.setNmiLatch v).odd = s.odd := rfl
@[simp] theorem setNmiLatch_cycles (v : Bool) : (s.setNmiLatch v).cycles = s.cycles := rfl
@[simp] theorem setNmiLatch_stepCycles (v : Bool) : (s.setNmiLatch v).stepCycles = s.stepCycles := rfl
@[simp] theorem setNmiLatch_status (v : Bool) : (s.setNmiLatch v).status = s.status := rfl
@[simp] theorem setNmiLatch_ram (v : Bool) : (s.setNmiLatch v).ram = s.ram := rfl
@[simp] theorem setNmiLatch_ppu (v : Bool) : (s.setNmiLatch v).ppu = s.ppu := rfl
@[simp] theorem setNmiLatch_pad (v : Bool) : (s.setNmiLatch v).pad = s.pad := rfl
@[simp] theorem setNmiLatch_cart (v : Bool) : (s.setNmiLatch v).cart = s.cart := rfl
@[simp] theorem setNmiLatch_mmc1 (v : Bool) : (s.setNmiLatch v).mmc1 = s.mmc1 := rfl
@[simp] theorem setNmiLatch_cartRam (v : Bool) : (s.setNmiLatch v).cartRam = s.cartRam := rfl
@[simp] theorem setNmiLatch_chrRam (v : Bool) : (s.setNmiLatch v).chrRam = s.chrRam := rfl
@[simp] theorem setNmiLatch_gate (v : Bool) : (s.setNmiLatch v).gate = s.gate := rfl
@[simp] theorem setNmiLatch_draws (v : Bool) : (s.setNmiLatch v).draws = s.draws := rfl
@[simp] theorem setStepCycles_a (v : Nat) : (s.setStepCycles v).a = s.a := rfl
@[simp] theorem setStepCycles_x (v : Nat) : (s.setStepCycles v).x = s.x := rfl
@[simp] theorem setStepCycles_y (v : Nat) : (s.setStepCycles v).y = s.y := rfl
@[simp] theorem setStepCycles_sp (v : Nat) : (s.setStepCycles v).sp = s.sp := rfl
@[simp] theorem setStepCycles_pc (v : Nat) : (s.setStepCycles v).pc = s.pc := rfl
@[simp] theorem setStepCycles_flags (v : Nat) : (s.setStepCycles v).flags = s.flags := rfl
@[simp] theorem setStepCycles_nmiLatch (v : Nat) : (s.setStepCycles v).nmiLatch = s.nmiLatch := rfl
@[simp] theorem setStepCycles_irqLine (v : Nat) : (s.setStepCycles v).irqLine = s.irqLine := rfl
@[simp] theorem setStepCycles_odd (v : Nat) : (s.setStepCycles v).odd = s.odd := rfl
@[simp] theorem setStepCycles_cycles (v : Nat) : (s.setStepCycles v).cycles = s.cycles := rfl
@[simp] theorem setStepCycles_stepCycles (v : Nat) : (s.setStepCycles v).stepCycles = v := rfl
@[simp] theorem setStepCycles_status (v : Nat) : (s.setStepCycles v).status = s.status := rfl
@[simp] theorem setStepCycles_ram (v : Nat) : (s.setStepCycles v).ram = s.ram := rfl
@[simp] theorem setStepCycles_ppu (v : Nat) : (s.setStepCycles v).ppu = s.ppu := rfl
@[simp] theorem setStepCycles_pad (v : Nat) : (s.setStepCycles v).pad = s.pad := rfl
@[simp] theorem setStepCycles_cart (v : Nat) : (s.setStepCycles v).cart = s.cart := rfl
@[simp] theorem setStepCycles_mmc1 (v : Nat) : (s.setStepCycles v).mmc1 = s.mmc1 := rfl
@[simp] theorem setStepCycles_cartRam (v : Nat) : (s.setStepCycles v).cartRam = s.cartRam := rfl
@[simp] theorem setStepCycles_chrRam (v : Nat) : (s.setStepCycles v).chrRam = s.chrRam := rfl
@[simp] theorem setStepCycles_gate (v : Nat) : (s.setStepCycles v).gate = s.gate := rfl
@[simp] theorem setStepCycles_draws (v : Nat) : (s.setStepCycles v).draws = s.draws := rfl
@[simp] theorem setStatus_a (v : RunStatus) : (s.setStatus v).a = s.a := rfl
@[simp] theorem setStatus_x (v : RunStatus) : (s.setStatus v).x = s.x := rfl
@[simp] theorem setStatus_y (v : RunStatus) : (s.setStatus v).y = s.y := rfl
@[simp] theorem setStatus_sp (v : RunStatus) : (s.setStatus v).sp = s.sp := rfl
@[simp] theorem setStatus_pc (v : RunStatus) : (s.setStatus v).pc = s.pc := rfl
@[simp] theorem setStatus_flags (v : RunStatus) : (s.setStatus v).flags = s.flags := rfl
@[simp] theorem setStatus_nmiLatch (v : RunStatus) : (s.setStatus v).nmiLatch = s.nmiLatch := rfl
@[simp] theorem setStatus_irqLine (v : RunStatus) : (s.setStatus v).irqLine = s.irqLine := rfl
@[simp] theorem setStatus_odd (v : RunStatus) : (s.setStatus v).odd = s.odd := rfl
@[simp] theorem setStatus_cycles (v : RunStatus) : (s.setStatus v).cycles = s.cycles := rfl
@[simp] theorem setStatus_stepCycles (v : RunStatus) : (s.setStatus v).stepCycles = s.stepCycles := rfl
@[simp] theorem setStatus_status (v : RunStatus) : (s.setStatus v).status = v := rfl
@[simp] theorem setStatus_ram (v : RunStatus) : (s.setStatus v).ram = s.ram := rfl
@[simp] theorem setStatus_ppu (v : RunStatus) : (s.setStatus v).ppu = s.ppu := rfl
@[simp] theorem setStatus_pad (v : RunStatus) : (s.setStatus v).pad = s.pad := rfl
@[simp] theorem setStatus_cart (v : RunStatus) : (s.setStatus v).cart = s.cart := rfl
@[simp] theorem setStatus_mmc1 (v : RunStatus) : (s.setStatus v).mmc1 = s.mmc1 := rfl
@[simp] theorem setStatus_cartRam (v : RunStatus) : (s.setStatus v).cartRam = s.cartRam := rfl
@[simp] theorem setStatus_chrRam (v : RunStatus) : (s.setStatus v).chrRam = s.chrRam := rfl
@[simp] theorem setStatus_gate (v : RunStatus) : (s.setStatus v).gate = s.gate := rfl
@[simp] theorem setStatus_draws (v : RunStatus) : (s.setStatus v).draws = s.draws := rfl
@[simp] theorem setRam_a (v : Memory) : (s.setRam v).a = s.a := rfl
@[simp] theorem setRam_x (v : Memory) : (s.setRam v).x = s.x := rfl
@[simp] theorem setRam_y (v : Memory) : (s.setRam v).y = s.y := rfl
@[simp] theorem setRam_sp (v : Memory) : (s.setRam v).sp = s.sp := rfl
@[simp] theorem setRam_pc (v : Memory) : (s.setRam v).pc = s.pc := rfl
@[simp] theorem setRam_flags (v : Memory) : (s.setRam v).flags = s.flags := rfl
@[simp] theorem setRam_nmiLatch (v : Memory) : (s.setRam v).nmiLatch = s.nmiLatch := rfl
@[simp] theorem setRam_irqLine (v : Memory) : (s.setRam v).irqLine = s.irqLine := rfl
@[simp] theorem setRam_odd (v : Memory) : (s.setRam v).odd = s.odd := rfl
@[simp] theorem setRam_cycles (v : Memory) : (s.setRam v).cycles = s.cycles := rfl
@[simp] theorem setRam_stepCycles (v : Memory) : (s.setRam v).stepCycles = s.stepCycles := rfl
@[simp] theorem setRam_status (v : Memory) : (s.setRam v).status = s.status := rfl
@[simp] theorem setRam_ram (v : Memory) : (s.setRam v).ram = v := rfl
@[simp] theorem setRam_ppu (v : Memory) : (s.setRam v).ppu = s.ppu := rfl
@[simp] theorem setRam_pad (v : Memory) : (s.setRam v).pad = s.pad := rfl
@[simp] theorem setRam_cart (v : Memory) : (s.setRam v).cart = s.cart := rfl
@[simp] theorem setRam_mmc1 (v : Memory) : (s.setRam v).mmc1 = s.mmc1 := rfl
@[simp] theorem setRam_cartRam (v : Memory) : (s.setRam v).cartRam = s.cartRam := rfl
@[simp] theorem setRam_chrRam (v : Memory) : (s.setRam v).chrRam = s.chrRam := rfl
@[simp] theorem setRam_gate (v : Memory) : (s.setRam v).gate = s.gate := rfl
@[simp] theorem setRam_draws (v : Memory) : (s.setRam v).draws = s.draws := rfl
@[simp] theorem setPpu_a (v : Ppu) : (s.setPpu v).a = s.a := rfl
@[simp] theorem setPpu_x (v : Ppu) : (s.setPpu v).x = s.x := rfl
@[simp] theorem setPpu_y (v : Ppu) : (s.setPpu v).y = s.y := rfl
@[simp] theorem setPpu_sp (v : Ppu) : (s.setPpu v).sp = s.sp := rfl
@[simp] theorem setPpu_pc (v : Ppu) : (s.setPpu v).pc = s.pc := rfl
@[simp] theorem setPpu_flags (v : Ppu) : (s.setPpu v).flags = s.flags := rfl
@[simp] theorem setPpu_nmiLatch (v : Ppu) : (s.setPpu v).nmiLatch = s.nmiLatch := rfl
@[simp] theorem setPpu_irqLine (v : Ppu) : (s.setPpu v).irqLine = s.irqLine := rfl
@[simp] theorem setPpu_odd (v : Ppu) : (s.setPpu v).odd = s.odd := rfl
@[simp] theorem setPpu_cycles (v : Ppu) : (s.setPpu v).cycles = s.cycles := rfl
@[simp] theorem setPpu_stepCycles (v : Ppu) : (s.setPpu v).stepCycles = s.stepCycles := rfl
@[simp] theorem setPpu_status (v : Ppu) : (s.setPpu v).status = s.status := rfl
@[simp] theorem setPpu_ram (v : Ppu) : (s.setPpu v).ram = s.ram := rfl
@[simp] theorem setPpu_ppu (v : Ppu) : (s.setPpu v).ppu = v := rfl
@[simp] theorem setPpu_pad (v : Ppu) : (s.setPpu v).pad = s.pad := rfl
@[simp] theorem setPpu_cart (v : Ppu) : (s.setPpu v).cart = s.cart := rfl
@[simp] theorem setPpu_mmc1 (v : Ppu) : (s.setPpu v).mmc1 = s.mmc1 := rfl
@[simp] theorem setPpu_cartRam (v : Ppu) : (s.setPpu v).cartRam = s.cartRam := rfl
@[simp] theorem setPpu_chrRam (v : Ppu) : (s.setPpu v).chrRam = s.chrRam := rfl
@[simp] theorem setPpu_gate (v : Ppu) : (s.setPpu v).gate = s.gate := rfl
@[simp] theorem setPpu_draws (v : Ppu) : (s.setPpu v).draws = s.draws := rfl
@[simp] theorem setPad_a (v : Pad) : (s.setPad v).a = s.a := rfl
@[simp] theorem setPad_x (v : Pad) : (s.setPad v).x = s.x := rfl
@[simp] theorem setPad_y (v : Pad) : (s.setPad v).y = s.y := rfl
@[simp] theorem setPad_sp (v : Pad) : (s.setPad v).sp = s.sp := rfl
@[simp] theorem setPad_pc (v : Pad) : (s.setPad v).pc = s.pc := rfl
@[simp] theorem setPad_flags (v : Pad) : (s.setPad v).flags = s.flags := rfl
@[simp] theorem setPad_nmiLatch (v : Pad) : (s.setPad v).nmiLatch = s.nmiLatch := rfl
@[simp] theorem setPad_irqLine (v : Pad) : (s.setPad v).irqLine = s.irqLine := rfl
@[simp] theorem setPad_odd (v : Pad) : (s.setPad v).odd = s.odd := rfl
@[simp] theorem setPad_cycles (v : Pad) : (s.setPad v).cycles = s.cycles := rfl
@[simp] theorem setPad_stepCycles (v : Pad) : (s.setPad v).stepCycles = s.stepCycles := rfl
@[simp] theorem setPad_status (v : Pad) : (s.setPad v).status = s.status := rfl
@[simp] theorem setPad_ram (v : Pad) : (s.setPad v).ram = s.ram := rfl
@[simp] theorem setPad_ppu (v : Pad) : (s.setPad v).ppu = s.ppu := rfl
@[simp] theorem setPad_pad (v : Pad) : (s.setPad v).pad = v := rfl
@[simp] theorem setPad_cart (v : Pad) : (s.setPad v).cart = s.cart := rfl
@[simp] theorem setPad_mmc1 (v : Pad) : (s.setPad v).mmc1 = s.mmc1 := rfl
@[simp] theorem setPad_cartRam (v : Pad) : (s.setPad v).cartRam = s.cartRam := rfl
@[simp] theorem setPad_chrRam (v : Pad) : (s.setPad v).chrRam = s.chrRam := rfl
@[simp] theorem setPad_gate (v : Pad) : (s.setPad v).gate = s.gate := rfl
@[simp] theorem setPad_draws (v : Pad) : (s.setPad v).draws = s.draws := rfl
@[simp] theorem setMmc1_a (v : Mmc1) : (s.setMmc1 v).a = s.a := rfl
@[simp] theorem setMmc1_x (v : Mmc1) : (s.setMmc1 v).x = s.x := rfl
@[simp] theorem setMmc1_y (v : Mmc1) : (s.setMmc1 v).y = s.y := rfl
@[simp] theorem setMmc1_sp (v : Mmc1) : (s.setMmc1 v).sp = s.sp := rfl
@[simp] theorem setMmc1_pc (v : Mmc1) : (s.setMmc1 v).pc = s.pc := rfl
@[simp] theorem setMmc1_flags (v : Mmc1) : (s.setMmc1 v).flags = s.flags := rfl
@[simp] theorem setMmc1_nmiLatch (v : Mmc1) : (s.setMmc1 v).nmiLatch = s.nmiLatch := rfl
@[simp] theorem setMmc1_irqLine (v : Mmc1) : (s.setMmc1 v).irqLine = s.irqLine := rfl
@[simp] theorem setMmc1_odd (v : Mmc1) : (s.setMmc1 v).odd = s.odd := rfl
@[simp] theorem setMmc1_cycles (v : Mmc1) : (s.setMmc1 v).cycles = s.cycles := rfl
@[simp] theorem setMmc1_stepCycles (v : Mmc1) : (s.setMmc1 v).stepCycles = s.stepCycles := rfl
@[simp] theorem setMmc1_status (v : Mmc1) : (s.setMmc1 v).status = s.status := rfl
@[simp] theorem setMmc1_ram (v : Mmc1) : (s.setMmc1 v).ram = s.ram := rfl
@[simp] theorem setMmc1_ppu (v : Mmc1) : (s.setMmc1 v).ppu = s.ppu := rfl
@[simp] theorem setMmc1_pad (v : Mmc1) : (s.setMmc1 v).pad = s.pad := rfl
@[simp] theorem setMmc1_cart (v : Mmc1) : (s.setMmc1 v).cart = s.cart := rfl
@[simp] theorem setMmc1_mmc1 (v : Mmc1) : (s.setMmc1 v).mmc1 = v := rfl
@[simp] theorem setMmc1_cartRam (v : Mmc1) : (s.setMmc1 v).cartRam = s.cartRam := rfl
@[simp] theorem setMmc1_chrRam (v : Mmc1) : (s.setMmc1 v).chrRam = s.chrRam := rfl
@[simp] theorem setMmc1_gate (v : Mmc1) : (s.setMmc1 v).gate = s.gate := rfl
@[simp] theorem setMmc1_draws (v : Mmc1) : (s.setMmc1 v).draws = s.draws := rfl
@[simp] theorem setCartRam_a (v : Memory) : (s.setCartRam v).a = s.a := rfl
@[simp] theorem setCartRam_x (v : Memory) : (s.setCartRam v).x = s.x := rfl
@[simp] theorem setCartRam_y (v : Memory) : (s.setCartRam v).y = s.y := rfl
@[simp] theorem setCartRam_sp (v : Memory) : (s.setCartRam v).sp = s.sp := rfl
@[simp] theorem setCartRam_pc (v : Memory) : (s.setCartRam v).pc = s.pc := rfl
@[simp] theorem setCartRam_flags (v : Memory) : (s.setCartRam v).flags = s.flags := rfl
@[simp] theorem setCartRam_nmiLatch (v : Memory) : (s.setCartRam v).nmiLatch = s.nmiLatch := rfl
@[simp] theorem setCartRam_irqLine (v : Memory) : (s.setCartRam v).irqLine = s.irqLine := rfl
@[simp] theorem setCartRam_odd (v : Memory) : (s.setCartRam v).odd = s.odd := rfl
@[simp] theorem setCartRam_cycles (v : Memory) : (s.setCartRam v).cycles = s.cycles := rfl
@[simp] theorem setCartRam_stepCycles (v : Memory) : (s.setCartRam v).stepCycles = s.stepCycles := rfl
@[simp] theorem setCartRam_status (v : Memory) : (s.setCartRam v).status = s.status := rfl
@[simp] theorem setCartRam_ram (v : Memory) : (s.setCartRam v).ram = s.ram := rfl
@[simp] theorem setCartRam_ppu (v : Memory) : (s.setCartRam v).ppu = s.ppu := rfl
@[simp] theorem setCartRam_pad (v : Memory) : (s.setCartRam v).pad = s.pad := rfl
@[simp] theorem setCartRam_cart (v : Memory) : (s.setCartRam v).cart = s.cart := rfl
@[simp] theorem setCartRam_mmc1 (v : Memory) : (s.setCartRam v).mmc1 = s.mmc1 := rfl
@[simp] theorem setCartRam_cartRam (v : Memory) : (s.setCartRam v).cartRam = v := rfl
@[simp] theorem setCartRam_chrRam (v : Memory) : (s.setCartRam v).chrRam = s.chrRam := rfl
@[simp] theorem setCartRam_gate (v : Memory) : (s.setCartRam v).gate = s.gate := rfl
@[simp] theorem setCartRam_draws (v : Memory) : (s.setCartRam v).draws = s.draws := rfl
@[simp] theorem setChrRam_a (v : Memory) : (s.setChrRam v).a = s.a := rfl
@[simp] theorem setChrRam_x (v : Memory) : (s.setChrRam v).x = s.x := rfl
@[simp] theorem setChrRam_y (v : Memory) : (s.setChrRam v).y = s.y := rfl
@[simp] theorem setChrRam_sp (v : Memory) : (s.setChrRam v).sp = s.sp := rfl
@[simp] theorem setChrRam_pc (v : Memory) : (s.setChrRam v).pc = s.pc := rfl
@[simp] theorem setChrRam_flags (v : Memory) : (s.setChrRam v).flags = s.flags := rfl
@[simp] theorem setChrRam_nmiLatch (v : Memory) : (s.setChrRam v).nmiLatch = s.nmiLatch := rfl
@[simp] theorem setChrRam_irqLine (v : Memory) : (s.setChrRam v).irqLine = s.irqLine := rfl
@[simp] theorem setChrRam_odd (v : Memory) : (s.setChrRam v).odd = s.odd := rfl
@[simp] theorem setChrRam_cycles (v : Memory) : (s.setChrRam v).cycles = s.cycles := rfl
@[simp] theorem setChrRam_stepCycles (v : Memory) : (s.setChrRam v).stepCycles = s.stepCycles := rfl
@[simp] theorem setChrRam_status (v : Memory) : (s.setChrRam v).status = s.status := rfl
@[simp] theorem setChrRam_ram (v : Memory) : (s.setChrRam v).ram = s.ram := rfl
@[simp] theorem setChrRam_ppu (v : Memory) : (s.setChrRam v).ppu = s.ppu := rfl
@[simp] theorem setChrRam_pad (v : Memory) : (s.setChrRam v).pad = s.pad := rfl
@[simp] theorem setChrRam_cart (v : Memory) : (s.setChrRam v).cart = s.cart := rfl
@[simp] theorem setChrRam_mmc1 (v : Memory) : (s.setChrRam v).mmc1 = s.mmc1 := rfl
@[simp] theorem setChrRam_cartRam (v : Memory) : (s.setChrRam v).cartRam = s.cartRam := rfl
@[simp] theorem setChrRam_chrRam (v : Memory) : (s.setChrRam v).chrRam = v := rfl
@[simp] theorem setChrRam_gate (v : Memory) : (s.setChrRam v).gate = s.gate := rfl
@[simp] theorem setChrRam_draws (v : Memory) : (s.setChrRam v).draws = s.draws := rfl
@[simp] theorem setGate_a (v : Gate) : (s.setGate v).a = s.a := rfl
@[simp] theorem setGate_x (v : Gate) : (s.setGate v).x = s.x := rfl
@[simp] theorem setGate_y (v : Gate) : (s.setGate v).y = s.y := rfl
@[simp] theorem setGate_sp (v : Gate) : (s.setGate v).sp = s.sp := rfl
@[simp] theorem setGate_pc (v : Gate) : (s.setGate v).pc = s.pc := rfl
@[simp] theorem setGate_flags (v : Gate) : (s.setGate v).flags = s.flags := rfl
@[simp] theorem setGate_nmiLatch (v : Gate) : (s.setGate v).nmiLatch = s.nmiLatch := rfl
@[simp] theorem setGate_irqLine (v : Gate) : (s.setGate v).irqLine = s.irqLine := rfl
@[simp] theorem setGate_odd (v : Gate) : (s.setGate v).odd = s.odd := rfl
@[simp] theorem setGate_cycles (v : Gate) : (s.setGate v).cycles = s.cycles := rfl
@[simp] theorem setGate_stepCycles (v : Gate) : (s.setGate v).stepCycles = s.stepCycles := rfl
@[simp] theorem setGate_status (v : Gate) : (s.setGate v).status = s.status := rfl
@[simp] theorem setGate_ram (v : Gate) : (s.setGate v).ram = s.ram := rfl
@[simp] theorem setGate_ppu (v : Gate) : (s.setGate v).ppu = s.ppu := rfl
@[simp] theorem setGate_pad (v : Gate) : (s.setGate v).pad = s.pad := rfl
@[simp] theorem setGate_cart (v : Gate) : (s.setGate v).cart = s.cart := rfl
@[simp] theorem setGate_mmc1 (v : Gate) : (s.setGate v).mmc1 = s.mmc1 := rfl
@[simp] theorem setGate_cartRam (v : Gate) : (s.setGate v).cartRam = s.cartRam := rfl
@[simp] theorem setGate_chrRam (v : Gate) : (s.setGate v).chrRam = s.chrRam := rfl
@[simp] theorem setGate_gate (v : Gate) : (s.setGate v).gate = v := rfl
@[simp] theorem setGate_draws (v : Gate) : (s.setGate v).draws = s.draws := rfl
@[simp] theorem setDraws_a (v : Nat) : (s.setDraws v).a = s.a := rfl
@[simp] theorem setDraws_x (v : Nat) : (s.setDraws v).x = s.x := rfl
@[simp] theorem setDraws_y (v : Nat) : (s.setDraws v).y = s.y := rfl
@[simp] theorem setDraws_sp (v : Nat) : (s.setDraws v).sp = s.sp := rfl
@[simp] theorem setDraws_pc (v : Nat) : (s.setDraws v).pc = s.pc := rfl
@[simp] theorem setDraws_flags (v : Nat) : (s.setDraws v).flags = s.flags := rfl
@[simp] theorem setDraws_nmiLatch (v : Nat) : (s.setDraws v).nmiLatch = s.nmiLatch := rfl
@[simp] theorem setDraws_irqLine (v : Nat) : (s.setDraws v).irqLine = s.irqLine := rfl
@[simp] theorem setDraws_odd (v : Nat) : (s.setDraws v).odd = s.odd := rfl
@[simp] theorem setDraws_cycles (v : Nat) : (s.setDraws v).cycles = s.cycles := rfl
@[simp] theorem setDraws_stepCycles (v : Nat) : (s.setDraws v).stepCycles = s.stepCycles := rfl
@[simp] theorem setDraws_status (v : Nat) : (s.setDraws v).status = s.status := rfl
@[simp] theorem setDraws_ram (v : Nat) : (s.setDraws v).ram = s.ram := rfl
@[simp] theorem setDraws_ppu (v : Nat) : (s.setDraws v).ppu = s.ppu := rfl
@[simp] theorem setDraws_pad (v : Nat) : (s.setDraws v).pad = s.pad := rfl
@[simp] theorem setDraws_cart (v : Nat) : (s.setDraws v).cart = s.cart := rfl
@[simp] theorem setDraws_mmc1 (v : Nat) : (s.setDraws v).mmc1 = s.mmc1 := rfl
@[simp] theorem setDraws_cartRam (v : Nat) : (s.setDraws v).cartRam = s.cartRam := rfl
@[simp] theorem setDraws_chrRam (v : Nat) : (s.setDraws v).chrRam = s.chrRam := rfl
@[simp] theorem setDraws_gate (v : Nat) : (s.setDraws v).gate = s.gate := rfl
@[simp] theorem setDraws_draws (v : Nat) : (s.setDraws v).draws = v := rfl

end Sys2Proof.Machine.State
end

