-- ==== Sys2Proof/Laws/Bus.lean ====
section
/-! SUPPORT. What the bus primitives can do (20_memory.md R60, R61): their answer in RAM, exactly when they fault, what they
leave alone, and that they neither read nor write the core's registers. -/

namespace Sys2Proof.Machine

@[simp] theorem ok_bind {α β : Type} (a : α) (f : α → Result β) : ((.ok a : Result α) >>= f) = f a := rfl

@[simp] theorem error_bind {α β : Type} (e : Fault) (f : α → Result β) : ((.error e : Result α) >>= f) = .error e := rfl

@[simp] theorem zext16_toNat (b : Byte) : (zext16 b).toNat = b.toNat := by
  have := b.isLt
  simp only [zext16, BitVec.toNat_setWidth]
  omega

theorem stackAddress_toNat (sp : Byte) : (stackAddress sp).toNat = 0x100 + sp.toNat := by
  have h := sp.isLt
  have h16 : sp.toNat % 2 ^ 16 = sp.toNat := Nat.mod_eq_of_lt (by omega)
  simp only [stackAddress, BitVec.toNat_or, BitVec.toNat_setWidth, h16]
  exact (Nat.two_pow_add_eq_or_of_lt (i := 8) h 1).symm

/-! RAM -/

/-- A read below $2000 is a RAM read, with no side effect (R60, R63). -/
theorem memRead_ram {addr : Word} (s : State) (h : addr.toNat ≤ 0x1FFF) :
    memRead addr s = .ok (s.ram.read (addr.toNat % 2048), s) := by
  simp [memRead, h]

/-- A write below $2000 is a RAM write (R61, R63). -/
theorem memWrite_ram {addr : Word} (d : Byte) (s : State) (h : addr.toNat ≤ 0x1FFF) :
    memWrite addr d s = .ok (0, s.setRam (s.ram.write (addr.toNat % 2048) d)) := by
  simp [memWrite, h]

@[simp] theorem memRead_zeroPage (b : Byte) (s : State) : memRead (zext16 b) s = .ok (s.ram.read b.toNat, s) := by
  have := b.isLt
  rw [memRead_ram s (by simp; omega), zext16_toNat, Nat.mod_eq_of_lt (by omega)]

@[simp] theorem memRead_stack (sp : Byte) (s : State) :
    memRead (stackAddress sp) s = .ok (s.ram.read (0x100 + sp.toNat), s) := by
  have := sp.isLt
  rw [memRead_ram s (by rw [stackAddress_toNat]; omega), stackAddress_toNat, Nat.mod_eq_of_lt (by omega)]

@[simp] theorem memWrite_stack (sp d : Byte) (s : State) :
    memWrite (stackAddress sp) d s = .ok (0, s.setRam (s.ram.write (0x100 + sp.toNat) d)) := by
  have := sp.isLt
  rw [memWrite_ram d s (by rw [stackAddress_toNat]; omega), stackAddress_toNat, Nat.mod_eq_of_lt (by omega)]

/-! Cartridge -/

/-- A read from $8000 on is a PRG-ROM byte, under both mappers (R91, R104). -/
theorem memRead_prg {addr : Word} (s : State) (h : 0x8000 ≤ addr.toNat) :
    memRead addr s = .ok (s.cart.prg.read (prgOffset s addr.toNat), s) := by
  simp only [memRead, cartRead, h, if_true, ok_bind]
  rw [if_neg (by omega), if_neg (by omega), if_neg (by omega), if_neg (by omega), if_neg (by omega), if_neg (by omega)]

theorem hasCartRam_iff (c : Cart) : hasCartRam c = true ↔ c.mapper = .mmc1 ∨ c.nromSram = true := by
  cases h : c.mapper <;> simp [hasCartRam, h]

/-! Faults -/

/-- A read answers a byte where `readFault` names no fault, and that fault, with nothing changed, where it names one. -/
theorem memRead_fault (addr : Word) (s : State) :
    match readFault s addr with
    | none => ∃ r, memRead addr s = .ok r
    | some f => memRead addr s = .error (.raised f s) := by
  have hlt := addr.isLt
  by_cases h1 : addr.toNat < 0x2000
  · simp [readFault, h1, memRead_ram s (show addr.toNat ≤ 0x1FFF by omega)]
  by_cases h2 : addr.toNat < 0x4000
  · have hm : addr.toNat % 8 < 8 := Nat.mod_lt _ (by omega)
    simp only [readFault, h1, h2, if_false, if_true, memRead, show ¬ addr.toNat ≤ 0x1FFF by omega,
      show addr.toNat ≤ 0x3FFF by omega]
    generalize addr.toNat % 8 = p at hm
    interval_cases p <;> simp [portRead, portAddress]
  by_cases h3 : addr.toNat = 0x4014
  · have : addr = 0x4014 := BitVec.eq_of_toNat_eq h3
    simp [readFault, memRead, this]
  by_cases h4 : addr.toNat < 0x4018
  · simp only [readFault, h1, h2, h3, h4, if_false, if_true, memRead, show ¬ addr.toNat ≤ 0x1FFF by omega,
      show ¬ addr.toNat ≤ 0x3FFF by omega, show addr.toNat ≤ 0x4017 by omega]
    split <;> exact ⟨_, rfl⟩
  by_cases h5 : 0x8000 ≤ addr.toNat
  · simp [readFault, h1, h2, h3, h4, h5, memRead_prg s h5]
  by_cases h6 : 0x6000 ≤ addr.toNat
  · simp only [readFault, h1, h2, h3, h4, h5, h6, if_false, memRead, show ¬ addr.toNat ≤ 0x1FFF by omega,
      show ¬ addr.toNat ≤ 0x3FFF by omega, show ¬ addr.toNat ≤ 0x4017 by omega, show ¬ addr.toNat ≤ 0x401F by omega,
      show ¬ addr.toNat = 0x4016 by omega, cartRead, true_and]
    by_cases hr : hasCartRam s.cart = true
    · simp [hr, (hasCartRam_iff s.cart).mp hr]
    · have hn : ¬ (s.cart.mapper = .mmc1 ∨ s.cart.nromSram = true) := fun h => hr ((hasCartRam_iff s.cart).mpr h)
      simp only [hr, hn, if_false]
      rfl
  · simp only [readFault, h1, h2, h3, h4, h5, h6, if_false, memRead, show ¬ addr.toNat ≤ 0x1FFF by omega,
      show ¬ addr.toNat ≤ 0x3FFF by omega, show ¬ addr.toNat ≤ 0x4017 by omega,
      show ¬ addr.toNat = 0x4016 by omega, cartRead, false_and]
    split <;> rfl

/-! What a read leaves alone -/

theorem buttonStates_frame (s : State) : ∃ draws, (buttonStates s).2 = s.setDraws draws := by
  simp only [buttonStates]
  split
  · exact ⟨s.draws, rfl⟩
  · exact ⟨s.draws + 1, rfl⟩

theorem controllerRead_frame (s : State) :
    ∃ ptr draws, (controllerRead s).2 = (s.setPad { s.pad with ptr := ptr }).setDraws draws ∧
      (s.pad.ptr ≤ 8 → ptr ≤ 8) := by
  obtain ⟨draws, hb⟩ := buttonStates_frame s
  by_cases hp : s.pad.ptr < 8
  · refine ⟨s.pad.ptr + 1, draws, ?_, fun _ => hp⟩
    simp only [controllerRead, hp, if_true, hb]
    rfl
  · exact ⟨s.pad.ptr, s.draws, by simp only [controllerRead, hp, if_false]; rfl, id⟩

/-- Everything a bus read can change (R53): of the PPU, `vblank` and `w` (PPUSTATUS) and `buf` and `v` (PPUDATA); the
controller's pointer; and the count of free inputs drawn. -/
theorem memRead_frame {addr : Word} {s s' : State} {d : Byte} (h : memRead addr s = .ok (d, s')) :
    ∃ vblank w buf v ptr draws,
      s' = ((s.setPpu { s.ppu with vblank := vblank, w := w, buf := buf, v := v }).setPad
        { s.pad with ptr := ptr }).setDraws draws ∧ (s.pad.ptr ≤ 8 → ptr ≤ 8) := by
  simp only [memRead] at h
  split_ifs at h with h1 h2 h3 h4 h5 h6
  · simp only [Except.ok.injEq, Prod.mk.injEq] at h
    exact ⟨s.ppu.vblank, s.ppu.w, s.ppu.buf, s.ppu.v, s.pad.ptr, s.draws, h.2.symm, id⟩
  · have hm : addr.toNat % 8 < 8 := Nat.mod_lt _ (by omega)
    generalize addr.toNat % 8 = p at hm h
    interval_cases p <;> simp [portRead] at h
    · obtain ⟨-, rfl⟩ := h
      exact ⟨false, false, s.ppu.buf, s.ppu.v, s.pad.ptr, s.draws + 1, rfl, id⟩
    · exact ⟨s.ppu.vblank, s.ppu.w, s.ppu.buf, s.ppu.v, s.pad.ptr, s.draws, h.2.symm, id⟩
    · simp only [readPpuData] at h
      split_ifs at h <;>
      · simp only [Prod.mk.injEq] at h
        obtain ⟨-, rfl⟩ := h
        exact ⟨s.ppu.vblank, s.ppu.w, ppuRead s _, s.ppu.v + vramIncrement s.ppu, s.pad.ptr, s.draws, rfl, id⟩
  · obtain ⟨ptr, draws, hk, hp⟩ := controllerRead_frame s
    have hs' : s' = (controllerRead s).2 := by
      rw [Except.ok.inj h]
    exact ⟨s.ppu.vblank, s.ppu.w, s.ppu.buf, s.ppu.v, ptr, draws, hs'.trans hk, hp⟩
  · simp only [Except.ok.injEq, Prod.mk.injEq] at h
    exact ⟨s.ppu.vblank, s.ppu.w, s.ppu.buf, s.ppu.v, s.pad.ptr, s.draws, h.2.symm, id⟩
  · cases hc : cartRead addr s with
    | error e => simp [hc] at h
    | ok b =>
      simp only [hc, ok_bind, Except.ok.injEq, Prod.mk.injEq] at h
      exact ⟨s.ppu.vblank, s.ppu.w, s.ppu.buf, s.ppu.v, s.pad.ptr, s.draws, h.2.symm, id⟩

/-! The bus does not see the core's registers -/

/-- The state `s` with the core's registers and bookkeeping (all that no bus device holds) taken from `t`. -/
def State.withCore (s t : State) : State :=
  { s with
    a := t.a, x := t.x, y := t.y, sp := t.sp, pc := t.pc, flags := t.flags, irqLine := t.irqLine, odd := t.odd,
    cycles := t.cycles, stepCycles := t.stepCycles, status := t.status, gate := t.gate }

theorem withCore_self (s : State) : s.withCore s = s := rfl

/-- A result with `g` applied to its state, be it the answer's or the one a fault leaves. -/
def onState (g : State → State) : Result State → Result State
  | .ok s => .ok (g s)
  | .error (.raised kind s) => .error (.raised kind (g s))

/-- A result with `g` applied to its state, be it the answer's or the one a fault leaves; the value it answers stays. -/
def onPair {α : Type} (g : State → State) : Result (α × State) → Result (α × State)
  | .ok (v, s) => .ok (v, g s)
  | .error (.raised kind s) => .error (.raised kind (g s))

@[simp] theorem onState_ok (g : State → State) (s : State) : onState g (.ok s) = .ok (g s) := rfl
@[simp] theorem onState_error (g : State → State) (k : FaultKind) (s : State) :
    onState g (.error (.raised k s)) = .error (.raised k (g s)) := rfl
@[simp] theorem onPair_ok {α : Type} (g : State → State) (r : α × State) : onPair g (.ok r) = .ok (r.1, g r.2) := rfl
@[simp] theorem onPair_error {α : Type} (g : State → State) (k : FaultKind) (s : State) :
    onPair (α := α) g (.error (.raised k s)) = .error (.raised k (g s)) := rfl

/-- A read answers the same and changes the same whatever the core's registers hold. -/
theorem memRead_withCore (addr : Word) (s t : State) :
    memRead addr (s.withCore t) = onPair (·.withCore t) (memRead addr s) := by
  have hc : (do Except.ok (← cartRead addr (s.withCore t), s.withCore t) : Result (Byte × State)) =
      onPair (·.withCore t) (do Except.ok (← cartRead addr s, s) : Result (Byte × State)) := by
    simp only [cartRead, show (s.withCore t).cart = s.cart from rfl]
    split_ifs <;> rfl
  have hp : ∀ p, portRead p (s.withCore t) = onPair (·.withCore t) (portRead p s) := by
    intro p
    simp only [portRead]
    split
    · rfl
    · rfl
    · simp only [readPpuData]
      have : ∀ a, ppuRead (s.withCore t) a = ppuRead s a := fun _ => rfl
      simp only [this, show (s.withCore t).ppu = s.ppu from rfl]
      split <;> rfl
    · rfl
  have hb : buttonStates (s.withCore t) = ((buttonStates s).1, (buttonStates s).2.withCore t) := by
    simp only [buttonStates, show (s.withCore t).pad.buttons = s.pad.buttons from rfl]
    split <;> rfl
  have hk : controllerRead (s.withCore t) = ((controllerRead s).1, (controllerRead s).2.withCore t) := by
    simp only [controllerRead, hb, show (s.withCore t).pad = s.pad from rfl]
    split <;> rfl
  simp only [memRead, hp, hk, hc]
  split_ifs <;> rfl

/-- A read commutes with a change of the core's registers that leaves the devices alone. -/
theorem memRead_core {addr : Word} {s s' : State} {d : Byte} (h : memRead addr s = .ok (d, s')) (t : State) :
    memRead addr (s.withCore t) = .ok (d, s'.withCore t) := by
  rw [memRead_withCore, h]; rfl

end Sys2Proof.Machine
end

