-- ==== Sys2Proof/Laws/Store.lean ====
section
/-! SUPPORT. What a bus write can do (20_memory.md R61): exactly when it faults, that it keeps the core's registers and the
cartridge, and that it keeps the invariant of the memories and counters. -/

namespace Sys2Proof.Machine

/-! What is left alone -/

/-- A read leaves the core's registers, the cartridge and every memory alone. -/
theorem memRead_core_kept {addr : Word} {s s' : State} {d : Byte} (h : memRead addr s = .ok (d, s')) :
    s' = s'.withCore s ∧ s'.cart = s.cart := by
  obtain ⟨_, _, _, _, _, _, rfl, -⟩ := memRead_frame h
  exact ⟨rfl, rfl⟩

theorem chrWrite_core_kept {a : Nat} {d : Byte} {s s' : State} (h : chrWrite a d s = .ok s') :
    s' = s'.withCore s ∧ s'.cart = s.cart := by
  simp only [chrWrite] at h
  split_ifs at h
  obtain rfl := Except.ok.inj h
  exact ⟨rfl, rfl⟩

theorem ppuWrite_core_kept {a : Nat} {d : Byte} {s s' : State} (h : ppuWrite a d s = .ok s') :
    s' = s'.withCore s ∧ s'.cart = s.cart := by
  simp only [ppuWrite] at h
  split_ifs at h
  · exact chrWrite_core_kept h
  · obtain rfl := Except.ok.inj h
    exact ⟨rfl, rfl⟩
  · obtain rfl := Except.ok.inj h
    exact ⟨rfl, rfl⟩

theorem portWrite_core_kept {p : Nat} {d : Byte} {s s' : State} (h : portWrite p d s = .ok s') :
    s' = s'.withCore s ∧ s'.cart = s.cart := by
  simp only [portWrite] at h
  split at h
  · obtain rfl := Except.ok.inj h; exact ⟨rfl, rfl⟩
  · obtain rfl := Except.ok.inj h; exact ⟨rfl, rfl⟩
  · exact absurd h (by simp)
  · obtain rfl := Except.ok.inj h; exact ⟨rfl, rfl⟩
  · obtain rfl := Except.ok.inj h; exact ⟨rfl, rfl⟩
  · obtain rfl := Except.ok.inj h
    simp only [writePpuScroll]
    split <;> exact ⟨rfl, rfl⟩
  · obtain rfl := Except.ok.inj h
    simp only [writePpuAddr]
    split <;> exact ⟨rfl, rfl⟩
  · simp only [writePpuData] at h
    cases hw : ppuWrite (s.ppu.v.toNat % 0x4000) d s with
    | error e => simp [hw] at h
    | ok s1 =>
      simp only [hw, ok_bind] at h
      obtain rfl := Except.ok.inj h
      obtain ⟨h1, h2⟩ := ppuWrite_core_kept hw
      exact ⟨by rw [h1]; rfl, h2⟩

theorem oamDmaCopy_core_kept (d : Byte) (n : Nat) {s s' : State} (h : oamDmaCopy d n s = .ok s') :
    s' = s'.withCore s ∧ s'.cart = s.cart := by
  induction n generalizing s with
  | zero =>
    obtain rfl := Except.ok.inj h
    exact ⟨rfl, rfl⟩
  | succ n ih =>
    simp only [oamDmaCopy] at h
    cases hr : memRead (mkWord (BitVec.ofNat 8 (255 - n)) d) s with
    | error e => simp [hr] at h
    | ok r =>
      obtain ⟨b, s1⟩ := r
      simp only [hr, ok_bind] at h
      obtain ⟨h1, h2⟩ := memRead_core_kept hr
      obtain ⟨h3, h4⟩ := ih h
      exact ⟨by rw [h3, h1]; rfl, h4.trans h2⟩

theorem cartWrite_core_kept {addr : Word} {d : Byte} {s s' : State} (h : cartWrite addr d s = .ok s') :
    s' = s'.withCore s ∧ s'.cart = s.cart := by
  simp only [cartWrite] at h
  split_ifs at h
  · split at h
    · exact absurd h (by simp)
    · obtain rfl := Except.ok.inj h
      exact ⟨rfl, rfl⟩
  · obtain rfl := Except.ok.inj h
    exact ⟨rfl, rfl⟩

/-- A write leaves the core's registers and the cartridge alone: it can change RAM, the PPU, the controller, MMC1, the
cartridge RAM, CHR-RAM, the NMI latch and the count of free inputs drawn. -/
theorem memWrite_core_kept {addr : Word} {d : Byte} {s s' : State} {k : Nat} (h : memWrite addr d s = .ok (k, s')) :
    s' = s'.withCore s ∧ s'.cart = s.cart := by
  simp only [memWrite] at h
  split_ifs at h
  · obtain ⟨-, rfl⟩ := Prod.mk.inj (Except.ok.inj h)
    exact ⟨rfl, rfl⟩
  · cases hp : portWrite (addr.toNat % 8) d s with
    | error e => simp [hp] at h
    | ok s1 =>
      simp only [hp, ok_bind] at h
      obtain ⟨-, rfl⟩ := Prod.mk.inj (Except.ok.inj h)
      exact portWrite_core_kept hp
  · simp only [oamDma] at h
    cases hd : oamDmaCopy d 256 s with
    | error e => simp [hd] at h
    | ok s1 =>
      simp only [hd, ok_bind] at h
      obtain ⟨-, rfl⟩ := Prod.mk.inj (Except.ok.inj h)
      exact oamDmaCopy_core_kept d 256 hd
  · obtain ⟨-, rfl⟩ := Prod.mk.inj (Except.ok.inj h)
    exact ⟨rfl, rfl⟩
  · obtain ⟨-, rfl⟩ := Prod.mk.inj (Except.ok.inj h)
    exact ⟨rfl, rfl⟩
  · cases hc : cartWrite addr d s with
    | error e => simp [hc] at h
    | ok s1 =>
      simp only [hc, ok_bind] at h
      obtain ⟨-, rfl⟩ := Prod.mk.inj (Except.ok.inj h)
      exact cartWrite_core_kept hc

/-- A write answers `odd`'s stall cycles for $4014 and no cycles elsewhere (R61, R176). -/
theorem memWrite_cycles {addr : Word} {d : Byte} {s s' : State} {k : Nat} (h : memWrite addr d s = .ok (k, s')) :
    k = if addr = 0x4014 then (if s.odd then 514 else 513) else 0 := by
  have ha : addr = 0x4014 ↔ addr.toNat = 0x4014 := ⟨fun h => by rw [h]; rfl, fun h => BitVec.eq_of_toNat_eq h⟩
  simp only [ha]
  simp only [memWrite] at h
  split_ifs at h with h1 h2 h3 h4 h5 h6
  · rw [if_neg (by omega)]; exact (Prod.mk.inj (Except.ok.inj h)).1.symm
  · rw [if_neg (by omega)]
    cases hp : portWrite (addr.toNat % 8) d s with
    | error e => simp [hp] at h
    | ok s1 =>
      simp only [hp, ok_bind] at h
      exact (Prod.mk.inj (Except.ok.inj h)).1.symm
  · rw [if_pos h3]
    simp only [oamDma] at h
    cases hd : oamDmaCopy d 256 s with
    | error e => simp [hd] at h
    | ok s1 =>
      simp only [hd, ok_bind] at h
      exact (Prod.mk.inj (Except.ok.inj h)).1.symm
  · rw [if_neg h3]; exact (Prod.mk.inj (Except.ok.inj h)).1.symm
  · rw [if_neg h3]; exact (Prod.mk.inj (Except.ok.inj h)).1.symm
  · rw [if_neg h3]
    cases hc : cartWrite addr d s with
    | error e => simp [hc] at h
    | ok s1 =>
      simp only [hc, ok_bind] at h
      exact (Prod.mk.inj (Except.ok.inj h)).1.symm

/-- A write leaves the PPU's position alone (R168: only the dots move it). -/
theorem memWrite_position {addr : Word} {d : Byte} {s s' : State} {k : Nat} (h : memWrite addr d s = .ok (k, s')) :
    s'.ppu.scanline = s.ppu.scanline ∧ s'.ppu.dot = s.ppu.dot := by
  have hppu : ∀ {a : Nat} {u : State}, ppuWrite a d s = .ok u →
      u.ppu.scanline = s.ppu.scanline ∧ u.ppu.dot = s.ppu.dot := by
    intro a u hw
    simp only [ppuWrite, chrWrite] at hw
    split_ifs at hw <;> obtain rfl := Except.ok.inj hw <;> exact ⟨rfl, rfl⟩
  have hport : ∀ {p : Nat} {u : State}, portWrite p d s = .ok u →
      u.ppu.scanline = s.ppu.scanline ∧ u.ppu.dot = s.ppu.dot := by
    intro p u hw
    simp only [portWrite] at hw
    split at hw
    · obtain rfl := Except.ok.inj hw; exact ⟨rfl, rfl⟩
    · obtain rfl := Except.ok.inj hw; exact ⟨rfl, rfl⟩
    · cases hw
    · obtain rfl := Except.ok.inj hw; exact ⟨rfl, rfl⟩
    · obtain rfl := Except.ok.inj hw; exact ⟨rfl, rfl⟩
    · obtain rfl := Except.ok.inj hw
      simp only [writePpuScroll]
      split <;> exact ⟨rfl, rfl⟩
    · obtain rfl := Except.ok.inj hw
      simp only [writePpuAddr]
      split <;> exact ⟨rfl, rfl⟩
    · simp only [writePpuData] at hw
      cases hp : ppuWrite (s.ppu.v.toNat % 0x4000) d s with
      | error e => rw [hp] at hw; cases hw
      | ok s1 =>
        simp only [hp, ok_bind] at hw
        obtain rfl := Except.ok.inj hw
        have h2 := hppu hp
        exact h2
  have hdma : ∀ (n : Nat) {u v : State}, oamDmaCopy d n u = .ok v → v.ppu.scanline = u.ppu.scanline ∧ v.ppu.dot = u.ppu.dot := by
    intro n
    induction n with
    | zero => intro u v hw; obtain rfl := Except.ok.inj hw; exact ⟨rfl, rfl⟩
    | succ n ih =>
      intro u v hw
      simp only [oamDmaCopy] at hw
      cases hr : memRead (mkWord (BitVec.ofNat 8 (255 - n)) d) u with
      | error e => rw [hr] at hw; cases hw
      | ok r =>
        obtain ⟨b, u1⟩ := r
        simp only [hr, ok_bind] at hw
        obtain ⟨h1, h2⟩ := ih hw
        obtain ⟨_, _, _, _, _, _, rfl, -⟩ := memRead_frame hr
        exact ⟨h1, h2⟩
  simp only [memWrite] at h
  split_ifs at h
  · obtain ⟨-, rfl⟩ := Prod.mk.inj (Except.ok.inj h); exact ⟨rfl, rfl⟩
  · cases hp : portWrite (addr.toNat % 8) d s with
    | error e => rw [hp] at h; cases h
    | ok s1 =>
      simp only [hp, ok_bind] at h
      obtain ⟨-, rfl⟩ := Prod.mk.inj (Except.ok.inj h)
      exact hport hp
  · simp only [oamDma] at h
    cases hd : oamDmaCopy d 256 s with
    | error e => rw [hd] at h; cases h
    | ok s1 =>
      simp only [hd, ok_bind] at h
      obtain ⟨-, rfl⟩ := Prod.mk.inj (Except.ok.inj h)
      exact hdma 256 hd
  · obtain ⟨-, rfl⟩ := Prod.mk.inj (Except.ok.inj h); exact ⟨rfl, rfl⟩
  · obtain ⟨-, rfl⟩ := Prod.mk.inj (Except.ok.inj h); exact ⟨rfl, rfl⟩
  · cases hc : cartWrite addr d s with
    | error e => rw [hc] at h; cases h
    | ok s1 =>
      simp only [hc, ok_bind] at h
      obtain ⟨-, rfl⟩ := Prod.mk.inj (Except.ok.inj h)
      simp only [cartWrite] at hc
      split_ifs at hc
      · split at hc
        · cases hc
        · obtain rfl := Except.ok.inj hc; exact ⟨rfl, rfl⟩
      · obtain rfl := Except.ok.inj hc; exact ⟨rfl, rfl⟩

/-! The MMC1 serial port -/

/-- Under MMC1 a write from $8000 on is a write to the serial port, and changes MMC1 alone (R96, R104). -/
theorem memWrite_serial {addr : Word} (d : Byte) {s : State} (hm : s.cart.mapper = .mmc1) (h : 0x8000 ≤ addr.toNat) :
    memWrite addr d s = .ok (0, s.setMmc1 (mmc1Write addr.toNat d s.mmc1)) := by
  simp only [memWrite, cartWrite, hm, h, if_true, ok_bind]
  rw [if_neg (by omega), if_neg (by omega), if_neg (by omega), if_neg (by omega), if_neg (by omega), if_neg (by omega)]

/-- The bit a write to the serial port loads (R97). -/
def serialBit (d : Byte) : Five := if d.getLsbD 0 then 1 else 0

/-- A write that loads one of the first four bits (R97). -/
theorem mmc1Write_load (a : Nat) {d : Byte} {m : Mmc1} {n : Nat} (h7 : d.getLsbD 7 = false) (hc : m.count = n) (hn : n < 4) :
    mmc1Write a d m = { m with shift := m.shift ||| (serialBit d <<< n), count := n + 1 } := by
  simp only [mmc1Write, h7, hc]
  rw [if_neg (by simp), if_neg (by omega)]
  rfl

/-- A write that commits the fifth bit (R97, R98). -/
theorem mmc1Write_commit (a : Nat) {d : Byte} {m : Mmc1} (h7 : d.getLsbD 7 = false) (hc : m.count = 4) :
    mmc1Write a d m = mmc1Commit a (m.shift ||| (serialBit d <<< 4)) { m with shift := 0, count := 0 } := by
  simp only [mmc1Write, h7, hc]
  rw [if_neg (by simp), if_pos trivial]
  rfl

/-! Faults -/

/-- Where reads fault depends on the cartridge alone. -/
theorem readFault_congr {s t : State} (h : s.cart = t.cart) (addr : Word) : readFault s addr = readFault t addr := by
  simp only [readFault, h]

/-- The OAM-DMA copy answers a state where none of its remaining source reads faults, and else the first fault, in the state
that the reads before it left. -/
theorem oamDmaCopy_fault (d : Byte) (n : Nat) (hn : n ≤ 256) (s : State) :
    match (List.range' (256 - n) n).findSome? fun i => readFault s (mkWord (BitVec.ofNat 8 i) d) with
    | none => ∃ s', oamDmaCopy d n s = .ok s'
    | some f => ∃ u, oamDmaCopy d n s = .error (.raised f u) := by
  induction n generalizing s with
  | zero => exact ⟨s, rfl⟩
  | succ n ih =>
    rw [List.range'_succ, show 256 - (n + 1) = 255 - n by omega, show 255 - n + 1 = 256 - n by omega,
      List.findSome?_cons]
    simp only [oamDmaCopy]
    have hr := memRead_fault (mkWord (BitVec.ofNat 8 (255 - n)) d) s
    cases hf : readFault s (mkWord (BitVec.ofNat 8 (255 - n)) d) with
    | some f =>
      rw [hf] at hr
      exact ⟨s, by simp only [hr, error_bind]⟩
    | none =>
      rw [hf] at hr
      obtain ⟨⟨b, s1⟩, hr⟩ := hr
      have hc := (memRead_core_kept hr).2
      have := ih (by omega) (s1.setPpu { s1.ppu with oam := s1.ppu.oam.write (255 - n) b })
      have hrf : (fun i => readFault (s1.setPpu { s1.ppu with oam := s1.ppu.oam.write (255 - n) b })
          (mkWord (BitVec.ofNat 8 i) d)) = fun i => readFault s (mkWord (BitVec.ofNat 8 i) d) :=
        funext fun i => readFault_congr hc _
      rw [hrf] at this
      simpa only [hr, ok_bind] using this

/-- The source address of an OAM-DMA read, as a number (R175). -/
theorem dma_address (d : Byte) {i : Nat} (hi : i < 256) :
    mkWord (BitVec.ofNat 8 i) d = BitVec.ofNat 16 (256 * d.toNat + i) := by
  have := d.isLt
  apply BitVec.eq_of_toNat_eq
  rw [mkWord_toNat, BitVec.toNat_ofNat, BitVec.toNat_ofNat]
  omega

theorem findSome_congr {α β : Type} {f g : α → Option β} {l : List α} (h : ∀ x ∈ l, f x = g x) :
    l.findSome? f = l.findSome? g := by
  induction l with
  | nil => rfl
  | cons x xs ih =>
    rw [List.findSome?_cons, List.findSome?_cons, h x (by simp), ih fun y hy => h y (by simp [hy])]

theorem oamDma_fault (d : Byte) (s : State) :
    match dmaFault s d with
    | none => ∃ r, oamDma d s = .ok r
    | some f => ∃ u, oamDma d s = .error (.raised f u) := by
  have h := oamDmaCopy_fault d 256 (le_refl _) s
  have hl : (List.range' (256 - 256) 256).findSome? (fun i => readFault s (mkWord (BitVec.ofNat 8 i) d)) =
      dmaFault s d := by
    rw [dmaFault, Nat.sub_self, ← List.range_eq_range']
    apply findSome_congr
    intro i hi
    rw [dma_address d (List.mem_range.mp hi)]
  rw [hl] at h
  cases hf : dmaFault s d with
  | none =>
    rw [hf] at h
    obtain ⟨s', h⟩ := h
    exact ⟨(if s.odd then 514 else 513, s'), by simp only [oamDma, h, ok_bind]⟩
  | some f =>
    rw [hf] at h
    obtain ⟨u, h⟩ := h
    exact ⟨u, by simp only [oamDma, h, error_bind]⟩

/-- A write answers where `writeFault` names no fault, and faults with the fault it names; a fault changes nothing, but for an
OAM-DMA, whose reads and copies before the fault have taken effect. -/
theorem memWrite_fault (addr : Word) (d : Byte) (s : State) :
    match writeFault s addr d with
    | none => ∃ r, memWrite addr d s = .ok r
    | some f => ∃ u, memWrite addr d s = .error (.raised f u) ∧ (addr ≠ 0x4014 → u = s) := by
  suffices h : match writeFault s addr d with
      | none => ∃ r, memWrite addr d s = .ok r
      | some f => (∃ u, addr = 0x4014 ∧ memWrite addr d s = .error (.raised f u)) ∨ memWrite addr d s = .error (.raised f s) by
    cases hw : writeFault s addr d with
    | none => rw [hw] at h; exact h
    | some f =>
      rw [hw] at h
      rcases h with ⟨u, ha, h⟩ | h
      · exact ⟨u, h, fun hn => absurd ha hn⟩
      · exact ⟨s, h, fun _ => rfl⟩
  have hlt := addr.isLt
  by_cases h1 : addr.toNat < 0x2000
  · simp [writeFault, h1, memWrite_ram d s (show addr.toNat ≤ 0x1FFF by omega)]
  by_cases h2 : addr.toNat < 0x4000
  · have hm : addr.toNat % 8 < 8 := Nat.mod_lt _ (by omega)
    simp only [writeFault, h1, h2, if_false, if_true, memWrite, show ¬ addr.toNat ≤ 0x1FFF by omega,
      show addr.toNat ≤ 0x3FFF by omega]
    generalize addr.toNat % 8 = p at hm
    have h7 : ¬ p = 7 → (match (if p = 2 then some (FaultKind.invalidMmioWrite 0x2002)
          else if p = 7 ∧ s.ppu.v.toNat % 0x4000 < 0x2000 ∧ s.cart.chrPages ≠ 0 then
            some (.unmappedAddress (BitVec.ofNat 16 (s.ppu.v.toNat % 0x4000))) else none) with
        | none => ∃ r, (do Except.ok (0, ← portWrite p d s) : Result (Nat × State)) = .ok r
        | some f => (∃ u, addr = 0x4014 ∧ (do Except.ok (0, ← portWrite p d s) : Result (Nat × State)) = .error (.raised f u)) ∨
            (do Except.ok (0, ← portWrite p d s) : Result (Nat × State)) = .error (.raised f s)) := by
      intro hp
      interval_cases p <;> first | (simp [portWrite, portAddress]; done) | exact absurd rfl hp
    by_cases hp : p = 7
    · subst hp
      simp only [portWrite, writePpuData, ppuWrite, Nat.mod_mod, show ¬ (7 = 2) by omega, if_false, true_and]
      by_cases hv : s.ppu.v.toNat % 0x4000 < 0x2000
      · by_cases hc : s.cart.chrPages = 0
        · simp [hv, hc, chrWrite]
        · simp [hv, hc, chrWrite]
      · simp only [hv, false_and, if_false]
        split <;> exact ⟨_, rfl⟩
    · exact h7 hp
  by_cases h3 : addr.toNat = 0x4014
  · have hd := oamDma_fault d s
    have ha : addr = 0x4014 := BitVec.eq_of_toNat_eq h3
    subst ha
    have hw : memWrite 0x4014 d s = oamDma d s := rfl
    have hf : writeFault s 0x4014 d = dmaFault s d := rfl
    rw [hw, hf]
    cases hd' : dmaFault s d with
    | none => rw [hd'] at hd; exact hd
    | some f =>
      rw [hd'] at hd
      obtain ⟨u, hd⟩ := hd
      exact Or.inl ⟨u, rfl, hd⟩
  by_cases h4 : addr.toNat < 0x4018
  · simp only [writeFault, h1, h2, h3, h4, if_false, if_true, memWrite, show ¬ addr.toNat ≤ 0x1FFF by omega,
      show ¬ addr.toNat ≤ 0x3FFF by omega, show addr.toNat ≤ 0x4017 by omega]
    split <;> exact ⟨_, rfl⟩
  by_cases h5 : 0x8000 ≤ addr.toNat
  · simp only [writeFault, h1, h2, h3, h4, h5, if_false, if_true, memWrite, show ¬ addr.toNat ≤ 0x1FFF by omega,
      show ¬ addr.toNat ≤ 0x3FFF by omega, show ¬ addr.toNat ≤ 0x4017 by omega, show ¬ addr.toNat ≤ 0x401F by omega,
      show ¬ addr.toNat = 0x4016 by omega, cartWrite]
    cases hm : s.cart.mapper
    · right; simp
    · simp
  by_cases h6 : 0x6000 ≤ addr.toNat
  · simp only [writeFault, h1, h2, h3, h4, h5, h6, if_false, memWrite, show ¬ addr.toNat ≤ 0x1FFF by omega,
      show ¬ addr.toNat ≤ 0x3FFF by omega, show ¬ addr.toNat ≤ 0x4017 by omega, show ¬ addr.toNat ≤ 0x401F by omega,
      show ¬ addr.toNat = 0x4016 by omega, cartWrite, true_and]
    by_cases hr : hasCartRam s.cart = true
    · simp [hr, (hasCartRam_iff s.cart).mp hr]
    · have hn : ¬ (s.cart.mapper = .mmc1 ∨ s.cart.nromSram = true) := fun h => hr ((hasCartRam_iff s.cart).mpr h)
      simp only [hr, hn, if_false]
      right; rfl
  · simp only [writeFault, h1, h2, h3, h4, h5, h6, if_false, memWrite, show ¬ addr.toNat ≤ 0x1FFF by omega,
      show ¬ addr.toNat ≤ 0x3FFF by omega, show ¬ addr.toNat ≤ 0x4017 by omega,
      show ¬ addr.toNat = 0x4016 by omega, cartWrite, false_and]
    right; split <;> rfl

/-- What a fault of an OAM-DMA leaves has every property that bus reads and writes of OAM keep (R175, R323). -/
theorem oamDmaCopy_error {P : State → Prop} (hr : ∀ {addr b} {s t : State}, memRead addr s = .ok (b, t) → P s → P t)
    (ho : ∀ {s : State} i b, i < 256 → P s → P (s.setPpu { s.ppu with oam := s.ppu.oam.write i b })) (d : Byte) (n : Nat)
    {s t : State} {k : FaultKind} (h : oamDmaCopy d n s = .error (.raised k t)) (hp : P s) : P t := by
  induction n generalizing s with
  | zero => cases h
  | succ n ih =>
    simp only [oamDmaCopy] at h
    cases hm : memRead (mkWord (BitVec.ofNat 8 (255 - n)) d) s with
    | error e =>
      have hf := memRead_fault (mkWord (BitVec.ofNat 8 (255 - n)) d) s
      cases hf' : readFault s (mkWord (BitVec.ofNat 8 (255 - n)) d) with
      | none =>
        rw [hf'] at hf
        obtain ⟨r, hf⟩ := hf
        rw [hf] at hm
        cases hm
      | some f =>
        rw [hf'] at hf
        rw [hf, error_bind] at h
        cases h
        exact hp
    | ok r =>
      simp only [hm, ok_bind] at h
      exact ih h (ho _ _ (by omega) (hr hm hp))

/-- What a faulting write leaves has every property that bus reads and writes of OAM keep (R323). -/
theorem memWrite_error {P : State → Prop} (hr : ∀ {addr b} {s t : State}, memRead addr s = .ok (b, t) → P s → P t)
    (ho : ∀ {s : State} i b, i < 256 → P s → P (s.setPpu { s.ppu with oam := s.ppu.oam.write i b })) {addr : Word} {d : Byte}
    {s t : State} {k : FaultKind} (h : memWrite addr d s = .error (.raised k t)) (hp : P s) : P t := by
  by_cases ha : addr = 0x4014
  · subst ha
    have hw : memWrite 0x4014 d s = (oamDmaCopy d 256 s >>= fun s' => .ok (if s.odd then 514 else 513, s')) := rfl
    rw [hw] at h
    cases hc : oamDmaCopy d 256 s with
    | ok r => rw [hc] at h; cases h
    | error e =>
      rw [hc, error_bind] at h
      cases h
      exact oamDmaCopy_error hr ho d 256 hc hp
  · have hf := memWrite_fault addr d s
    cases hf' : writeFault s addr d with
    | none =>
      rw [hf'] at hf
      obtain ⟨r, hf⟩ := hf
      rw [hf] at h
      cases h
    | some f =>
      rw [hf'] at hf
      obtain ⟨u, hu, hs⟩ := hf
      rw [hu] at h
      cases h
      rw [hs ha]
      exact hp

/-- A faulting read leaves the state it found. -/
theorem memRead_error {addr : Word} {s t : State} {k : FaultKind} (h : memRead addr s = .error (.raised k t)) :
    t = s ∧ readFault s addr = some k := by
  have hf := memRead_fault addr s
  cases hf' : readFault s addr with
  | none =>
    rw [hf'] at hf
    obtain ⟨r, hf⟩ := hf
    rw [hf] at h
    cases h
  | some f =>
    rw [hf'] at hf
    rw [hf] at h
    cases h
    exact ⟨rfl, rfl⟩

/-! The bus does not see the core's registers -/

/-- A write does the same whatever the core's registers hold, but for `odd`, which the OAM-DMA stall reads (R176). -/
theorem memWrite_withCore (addr : Word) (d : Byte) (s t : State) (ho : t.odd = s.odd) :
    memWrite addr d (s.withCore t) = onPair (·.withCore t) (memWrite addr d s) := by
  have hchr : ∀ a, chrWrite a d (s.withCore t) = onState (·.withCore t) (chrWrite a d s) := by
    intro a
    simp only [chrWrite, show (s.withCore t).cart = s.cart from rfl]
    split <;> rfl
  have hppu : ∀ a, ppuWrite a d (s.withCore t) = onState (·.withCore t) (ppuWrite a d s) := by
    intro a
    simp only [ppuWrite, hchr]
    split_ifs <;> rfl
  have hport : ∀ p, portWrite p d (s.withCore t) = onState (·.withCore t) (portWrite p d s) := by
    intro p
    simp only [portWrite]
    split
    all_goals try rfl
    · simp only [writePpuScroll, show (s.withCore t).ppu = s.ppu from rfl]; split <;> rfl
    · simp only [writePpuAddr, show (s.withCore t).ppu = s.ppu from rfl]; split <;> rfl
    · simp only [writePpuData, hppu, show (s.withCore t).ppu = s.ppu from rfl]
      cases ppuWrite (s.ppu.v.toNat % 0x4000) d s <;> rfl
  have hcart : cartWrite addr d (s.withCore t) = onState (·.withCore t) (cartWrite addr d s) := by
    simp only [cartWrite, show (s.withCore t).cart = s.cart from rfl]
    split_ifs
    · split <;> rfl
    · rfl
    · rfl
  have hcopy : ∀ n (u : State), oamDmaCopy d n (u.withCore t) = onState (·.withCore t) (oamDmaCopy d n u) := by
    intro n
    induction n with
    | zero => intro u; rfl
    | succ n ih =>
      intro u
      simp only [oamDmaCopy, memRead_withCore]
      cases memRead (mkWord (BitVec.ofNat 8 (255 - n)) d) u with
      | error e => rfl
      | ok r => exact ih (r.2.setPpu { r.2.ppu with oam := r.2.ppu.oam.write (255 - n) r.1 })
  have hdma : oamDma d (s.withCore t) = onPair (·.withCore t) (oamDma d s) := by
    simp only [oamDma, hcopy, show (s.withCore t).odd = s.odd from ho]
    cases oamDmaCopy d 256 s <;> rfl
  simp only [memWrite, hport, hcart, hdma]
  split_ifs
  · rfl
  · cases portWrite (addr.toNat % 8) d s <;> rfl
  · rfl
  · rfl
  · rfl
  · rfl
  · cases cartWrite addr d s <;> rfl

end Sys2Proof.Machine
end

