-- ==== Sys2Proof/Laws/Invariant.lean ====
section
/-! SUPPORT. The bus primitives keep the canonical form of every memory and the ranges of the device counters. -/

namespace Sys2Proof.Machine

/-- The part of the invariant that the bus can touch: canonical memories, counters in range, an accepted cartridge. -/
def State.busInv (s : State) : Prop :=
  s.memoriesWf = true ∧ s.countersInRange = true ∧ s.cart.wellFormed = true

theorem inv_iff (s : State) : s.inv = true ↔ s.busInv ∧ s.odd = (s.cycles % 2 == 1) := by
  simp only [State.inv, State.busInv, Bool.and_eq_true, beq_iff_eq]
  tauto

theorem memoriesWf_iff (s : State) : s.memoriesWf = true ↔
    Memory.wf 2048 s.ram = true ∧ Memory.wf 8192 s.cartRam = true ∧ Memory.wf 8192 s.chrRam = true ∧
      Memory.wf 2048 s.ppu.ciram = true ∧ Memory.wf 32 s.ppu.pal = true ∧ Memory.wf 256 s.ppu.oam = true := by
  simp [State.memoriesWf, and_assoc]

theorem countersInRange_iff (s : State) : s.countersInRange = true ↔
    s.ppu.scanline < 262 ∧ s.ppu.dot < 341 ∧ s.pad.ptr ≤ 8 ∧ s.mmc1.count < 5 := by
  simp [State.countersInRange, and_assoc]

theorem busInv_iff (s : State) : s.busInv ↔
    (Memory.wf 2048 s.ram = true ∧ Memory.wf 8192 s.cartRam = true ∧ Memory.wf 8192 s.chrRam = true ∧
      Memory.wf 2048 s.ppu.ciram = true ∧ Memory.wf 32 s.ppu.pal = true ∧ Memory.wf 256 s.ppu.oam = true) ∧
    (s.ppu.scanline < 262 ∧ s.ppu.dot < 341 ∧ s.pad.ptr ≤ 8 ∧ s.mmc1.count < 5) ∧ s.cart.wellFormed = true := by
  simp only [State.busInv, memoriesWf_iff, countersInRange_iff]

/-- What has the same devices has the same invariant. -/
theorem busInv_withCore {s : State} (t : State) (h : s.busInv) : (s.withCore t).busInv := h

/-- A bus read keeps the invariant. -/
theorem memRead_busInv {addr : Word} {s s' : State} {d : Byte} (h : memRead addr s = .ok (d, s')) (hi : s.busInv) :
    s'.busInv := by
  obtain ⟨_, _, _, _, _, _, rfl, hp⟩ := memRead_frame h
  rw [busInv_iff] at hi ⊢
  obtain ⟨hm, ⟨h1, h2, h3, h4⟩, hc⟩ := hi
  exact ⟨hm, ⟨h1, h2, hp h3, h4⟩, hc⟩

theorem nametablePage_le (m : Mirroring) {t : Nat} (ht : t < 4) : nametablePage m t ≤ 1 := by
  cases m <;> simp only [nametablePage] <;> omega

theorem ciramIndex_lt (m : Mirroring) (a : Nat) : ciramIndex m a < 2048 := by
  have := nametablePage_le m (t := (a - 0x2000) % 0x1000 / 1024) (by omega)
  simp only [ciramIndex]
  omega

theorem palIndex_lt (a : Nat) : palIndex a < 32 := by
  simp only [palIndex]
  split <;> omega

/-- With no CHR page, a pattern-table address falls inside the 8 KiB of CHR-RAM. -/
theorem chrOffset_lt {s : State} {a : Nat} (ha : a < 0x2000) (hc : s.cart.chrPages = 0) : chrOffset s a < 8192 := by
  simp only [chrOffset, hc]
  split
  · exact ha
  · have h1 : ∀ n : Nat, n % 2 < 2 := fun n => Nat.mod_lt _ (by omega)
    simp only [if_true]
    split
    · have := h1 ((s.mmc1.chr0 &&& 0x1E).toNat + a / 4096); omega
    · have := h1 (if a < 0x1000 then s.mmc1.chr0.toNat else s.mmc1.chr1.toNat); omega

theorem chrWrite_busInv {a : Nat} {d : Byte} {s s' : State} (ha : a < 0x2000) (h : chrWrite a d s = .ok s')
    (hi : s.busInv) : s'.busInv := by
  simp only [chrWrite] at h
  split_ifs at h with hc
  obtain rfl := Except.ok.inj h
  rw [busInv_iff] at hi ⊢
  obtain ⟨⟨h1, h2, h3, h4⟩, hr⟩ := hi
  exact ⟨⟨h1, h2, Memory.write_wf d h3 (chrOffset_lt ha hc), h4⟩, hr⟩

theorem ppuWrite_busInv {a : Nat} {d : Byte} {s s' : State} (h : ppuWrite a d s = .ok s') (hi : s.busInv) :
    s'.busInv := by
  simp only [ppuWrite] at h
  split_ifs at h with h1 h2
  · exact chrWrite_busInv h1 h hi
  · obtain rfl := Except.ok.inj h
    rw [busInv_iff] at hi ⊢
    obtain ⟨⟨m1, m2, m3, m4, m5, m6⟩, hr⟩ := hi
    exact ⟨⟨m1, m2, m3, Memory.write_wf d m4 (ciramIndex_lt _ _), m5, m6⟩, hr⟩
  · obtain rfl := Except.ok.inj h
    rw [busInv_iff] at hi ⊢
    obtain ⟨⟨m1, m2, m3, m4, m5, m6⟩, hr⟩ := hi
    exact ⟨⟨m1, m2, m3, m4, Memory.write_wf d m5 (palIndex_lt _), m6⟩, hr⟩

theorem oamWrite_busInv {s : State} {i : Nat} (d : Byte) (hi : s.busInv) (h : i < 256) :
    (s.setPpu { s.ppu with oam := s.ppu.oam.write i d }).busInv := by
  rw [busInv_iff] at hi ⊢
  obtain ⟨⟨m1, m2, m3, m4, m5, m6⟩, hr⟩ := hi
  exact ⟨⟨m1, m2, m3, m4, m5, Memory.write_wf d m6 h⟩, hr⟩

theorem portWrite_busInv {p : Nat} {d : Byte} {s s' : State} (h : portWrite p d s = .ok s') (hi : s.busInv) :
    s'.busInv := by
  simp only [portWrite] at h
  split at h
  · obtain rfl := Except.ok.inj h; exact hi
  · obtain rfl := Except.ok.inj h; exact hi
  · exact absurd h (by simp)
  · obtain rfl := Except.ok.inj h; exact hi
  · obtain rfl := Except.ok.inj h
    exact oamWrite_busInv d hi s.ppu.oamaddr.isLt
  · obtain rfl := Except.ok.inj h
    simp only [writePpuScroll]
    split <;> exact hi
  · obtain rfl := Except.ok.inj h
    simp only [writePpuAddr]
    split <;> exact hi
  · simp only [writePpuData] at h
    cases hw : ppuWrite (s.ppu.v.toNat % 0x4000) d s with
    | error e => simp [hw] at h
    | ok s1 =>
      simp only [hw, ok_bind] at h
      obtain rfl := Except.ok.inj h
      have h1 := ppuWrite_busInv hw hi
      exact h1

theorem oamDmaCopy_busInv (d : Byte) (n : Nat) {s s' : State} (h : oamDmaCopy d n s = .ok s') (hi : s.busInv) :
    s'.busInv := by
  induction n generalizing s with
  | zero =>
    obtain rfl := Except.ok.inj h
    exact hi
  | succ n ih =>
    simp only [oamDmaCopy] at h
    cases hr : memRead (mkWord (BitVec.ofNat 8 (255 - n)) d) s with
    | error e => simp [hr] at h
    | ok r =>
      obtain ⟨b, s1⟩ := r
      simp only [hr, ok_bind] at h
      exact ih h (oamWrite_busInv b (memRead_busInv hr hi) (by omega))

theorem mmc1Write_count (a : Nat) (d : Byte) {m : Mmc1} (h : m.count < 5) : (mmc1Write a d m).count < 5 := by
  simp only [mmc1Write]
  split
  · simp
  · split
    · simp only [mmc1Commit]
      split <;> simp
    · simp only []
      omega

theorem cartWrite_busInv {addr : Word} {d : Byte} {s s' : State} (h : cartWrite addr d s = .ok s') (hi : s.busInv) :
    s'.busInv := by
  simp only [cartWrite] at h
  split_ifs at h with h1 h2
  · split at h
    · exact absurd h (by simp)
    · obtain rfl := Except.ok.inj h
      rw [busInv_iff] at hi ⊢
      obtain ⟨hm, ⟨c1, c2, c3, c4⟩, hc⟩ := hi
      exact ⟨hm, ⟨c1, c2, c3, mmc1Write_count _ d c4⟩, hc⟩
  · obtain rfl := Except.ok.inj h
    rw [busInv_iff] at hi ⊢
    obtain ⟨⟨m1, m2, m3⟩, hr⟩ := hi
    exact ⟨⟨m1, Memory.write_wf d m2 (by omega), m3⟩, hr⟩

/-- A bus write keeps the invariant. -/
theorem memWrite_busInv {addr : Word} {d : Byte} {s s' : State} {k : Nat} (h : memWrite addr d s = .ok (k, s'))
    (hi : s.busInv) : s'.busInv := by
  simp only [memWrite] at h
  split_ifs at h
  · obtain ⟨-, rfl⟩ := Prod.mk.inj (Except.ok.inj h)
    rw [busInv_iff] at hi ⊢
    obtain ⟨⟨m1, m2⟩, hr⟩ := hi
    exact ⟨⟨Memory.write_wf d m1 (Nat.mod_lt _ (by omega)), m2⟩, hr⟩
  · cases hp : portWrite (addr.toNat % 8) d s with
    | error e => simp [hp] at h
    | ok s1 =>
      simp only [hp, ok_bind] at h
      obtain ⟨-, rfl⟩ := Prod.mk.inj (Except.ok.inj h)
      exact portWrite_busInv hp hi
  · simp only [oamDma] at h
    cases hd : oamDmaCopy d 256 s with
    | error e => simp [hd] at h
    | ok s1 =>
      simp only [hd, ok_bind] at h
      obtain ⟨-, rfl⟩ := Prod.mk.inj (Except.ok.inj h)
      exact oamDmaCopy_busInv d 256 hd hi
  · obtain ⟨-, rfl⟩ := Prod.mk.inj (Except.ok.inj h)
    rw [busInv_iff] at hi ⊢
    obtain ⟨hm, ⟨c1, c2, c3, c4⟩, hc⟩ := hi
    refine ⟨hm, ⟨c1, c2, ?_, c4⟩, hc⟩
    simp only [controllerWrite, State.setPad_pad]
    split <;> omega
  · obtain ⟨-, rfl⟩ := Prod.mk.inj (Except.ok.inj h)
    exact hi
  · cases hc : cartWrite addr d s with
    | error e => simp [hc] at h
    | ok s1 =>
      simp only [hc, ok_bind] at h
      obtain ⟨-, rfl⟩ := Prod.mk.inj (Except.ok.inj h)
      exact cartWrite_busInv hc hi

/-- The reset state has the invariant of the memories and counters. -/
theorem reset_busInv : State.reset.busInv := by
  refine ⟨?_, ?_, ?_⟩ <;> decide

end Sys2Proof.Machine
end

