-- ==== Sys2Proof/Laws/Ops.lean ====
section
/-! SUPPORT. The stack, the exceptions, the addressing modes and the operands, each as one closed answer: what the operation
does in every state (10_state.md R28; 60_exceptions.md R336; 43_control_transfer.md R274; 30_encoding.md R141, R142). -/

namespace Sys2Proof.Machine

/-! The stack -/

/-- A push writes the stack byte and counts SP down; it never faults (R28, R322). -/
@[simp] theorem push_eq (v : Byte) (s : State) :
    push v s = .ok ((s.setRam (s.ram.write (0x100 + s.sp.toNat) v)).setSp (s.sp - 1)) := by
  simp only [push, memWrite_stack, ok_bind]
  rfl

/-- A pull counts SP up and reads the stack byte; it never faults (R28, R322). -/
@[simp] theorem pull_eq (s : State) :
    pull s = .ok (s.ram.read (0x100 + (s.sp + 1).toNat), s.setSp (s.sp + 1)) := by
  simp only [pull, State.setSp_sp, memRead_stack, State.setSp_ram]

/-- The high byte is pushed first, so it lies above the low byte (R28). -/
@[simp] theorem push16_eq (v : Word) (s : State) :
    push16 v s = .ok ((s.setRam ((s.ram.write (0x100 + s.sp.toNat) (highByte v)).write
      (0x100 + (s.sp - 1).toNat) (lowByte v))).setSp (s.sp - 2)) := by
  have h : s.sp - 1 - 1 = s.sp - 2 := by bv_omega
  simp only [push16, push_eq, ok_bind, State.setSp_sp, State.setSp_ram, State.setRam_ram, h]
  rfl

/-- The low byte is pulled first (R28). -/
@[simp] theorem pull16_eq (s : State) :
    pull16 s = .ok (mkWord (s.ram.read (0x100 + (s.sp + 1).toNat)) (s.ram.read (0x100 + (s.sp + 2).toNat)),
      s.setSp (s.sp + 2)) := by
  have h : s.sp + 1 + 1 = s.sp + 2 := by bv_omega
  simp only [pull16, pull_eq, ok_bind, State.setSp_sp, State.setSp_ram, h]
  rfl

/-! Exceptions -/

/-- From $8000 on an observation is the PRG-ROM byte a read answers (R62, R91, R104). -/
theorem memObserve_prg {addr : Word} (s : State) (h : 0x8000 ≤ addr.toNat) :
    memObserve addr s = s.cart.prg.read (prgOffset s addr.toNat) := by
  simp only [memObserve, memRead_prg s h]

/-- The word at an address in PRG-ROM, read through the mapper (R50, R56). -/
def prgWord (addr : Word) (s : State) : Word :=
  mkWord (s.cart.prg.read (prgOffset s addr.toNat)) (s.cart.prg.read (prgOffset s (addr + 1).toNat))

/-- From $8000 on an observed word is the word in PRG-ROM. -/
theorem observeWord_prg {addr : Word} (s : State) (h : 0x8000 ≤ addr.toNat) (h1 : 0x8000 ≤ (addr + 1).toNat) :
    observeWord addr s = prgWord addr s := by
  simp only [observeWord, memObserve_prg s h, memObserve_prg s h1, prgWord]

/-- A jump through a pointer in PRG-ROM never faults and changes nothing but PC (R322). -/
theorem jumpThrough_eq {vec : Word} (s : State) (h : 0x8000 ≤ vec.toNat) (h1 : 0x8000 ≤ (vec + 1).toNat) :
    jumpThrough vec s = .ok (s.setPc (prgWord vec s)) := by
  simp only [jumpThrough, memRead_prg s h, memRead_prg s h1, ok_bind]
  rfl

@[simp] theorem jumpThrough_nmi (s : State) : jumpThrough nmiVector s = .ok (s.setPc (prgWord nmiVector s)) :=
  jumpThrough_eq s (by decide) (by decide)

@[simp] theorem jumpThrough_reset (s : State) : jumpThrough resetVector s = .ok (s.setPc (prgWord resetVector s)) :=
  jumpThrough_eq s (by decide) (by decide)

@[simp] theorem jumpThrough_irq (s : State) : jumpThrough irqVector s = .ok (s.setPc (prgWord irqVector s)) :=
  jumpThrough_eq s (by decide) (by decide)

/-- Taking an exception never faults: three stack bytes, SP down by 3, I set, PC from the vector, nothing else (R336). -/
theorem takeException_eq (returnPc : Word) (status : Byte) {vec : Word} (s : State) (h : 0x8000 ≤ vec.toNat)
    (h1 : 0x8000 ≤ (vec + 1).toNat) :
    takeException returnPc status vec s =
      .ok ((((s.setRam (exceptionFrame returnPc status s)).setSp (s.sp - 3)).setFlags { s.flags with i := true }).setPc
        (prgWord vec s)) := by
  have h3 : s.sp - 2 - 1 = s.sp - 3 := by bv_omega
  simp only [takeException, push16_eq, ok_bind, push_eq, State.setSp_sp, State.setSp_ram, State.setRam_ram, h3,
    jumpThrough_eq _ h h1]
  rfl

/-- An interrupt entry takes 7 cycles (R336). -/
theorem interruptEntry_eq {vec : Word} (s : State) (h : 0x8000 ≤ vec.toNat) (h1 : 0x8000 ≤ (vec + 1).toNat) :
    interruptEntry vec s =
      .ok (((((s.setStepCycles 7).setRam (exceptionFrame s.pc ((getP s.flags &&& 0xEF) ||| 0x20) s)).setSp (s.sp - 3)).setFlags
        { s.flags with i := true }).setPc (prgWord vec s)) := by
  simp only [interruptEntry, takeException_eq _ _ _ h h1]
  rfl

/-- Returning from an exception never faults: the flags, then PC, SP up by 3, nothing else (R274). -/
theorem returnFromException_eq (s : State) :
    returnFromException s =
      .ok (((s.setSp (s.sp + 3)).setFlags (setP (s.ram.read (0x100 + (s.sp + 1).toNat)))).setPc
        (mkWord (s.ram.read (0x100 + (s.sp + 2).toNat)) (s.ram.read (0x100 + (s.sp + 3).toNat)))) := by
  have h2 : s.sp + 1 + 1 = s.sp + 2 := by bv_omega
  have h3 : s.sp + 1 + 2 = s.sp + 3 := by bv_omega
  simp only [returnFromException, pull_eq, ok_bind, pull16_eq, State.setFlags_sp, State.setFlags_ram, State.setSp_sp,
    State.setSp_ram, h2, h3]
  rfl

/-! Addressing modes -/

/-- IndirectX never faults and has no side effect: its pointer is in RAM (R141, R322). -/
@[simp] theorem modeIndX_eq (zp : Byte) (s : State) :
    modeIndX zp s = .ok (⟨.ram (zeroPageWord (zp + s.x) s), false⟩, s) := by
  simp only [modeIndX, memRead_zeroPage, ok_bind]
  rfl

/-- IndirectY never faults and has no side effect: its pointer is in RAM (R142, R322). -/
@[simp] theorem modeIndY_eq (zp : Byte) (s : State) :
    modeIndY zp s =
      .ok (⟨.ram (zeroPageWord zp s + zext16 s.y), pageCross (zeroPageWord zp s) (zeroPageWord zp s + zext16 s.y)⟩, s) := by
  simp only [modeIndY, memRead_zeroPage, ok_bind]
  rfl

/-- A branch target crosses a page, as its rule puts it (R136). -/
theorem pageCross_iff (a b : Word) : pageCross a b = true ↔ a.toNat / 256 ≠ b.toNat / 256 := by
  have ha := a.isLt
  have hb := b.isLt
  simp only [pageCross, bne_iff_ne, ne_eq, highByte]
  rw [← BitVec.toNat_inj]
  simp only [BitVec.toNat_setWidth, BitVec.toNat_ushiftRight, Nat.shiftRight_eq_div_pow]
  omega

/-! The bus behind the frame of an instruction -/

/-- What a faulting write leaves has the core's registers as they were. -/
theorem memWrite_error_core {addr : Word} {d : Byte} {s t : State} {k : FaultKind}
    (h : memWrite addr d s = .error (.raised k t)) : t = t.withCore s :=
  memWrite_error (P := fun u => u = u.withCore s)
    (fun hr hp => by
      obtain ⟨_, _, _, _, _, _, rfl, -⟩ := memRead_frame hr
      rw [hp]
      rfl)
    (fun _ _ _ hp => by
      rw [hp]
      rfl) h rfl

/-- A read in the state the frame of an instruction prepares: what it answers and changes depends on neither (R163). -/
theorem memRead_prepared (addr : Word) (s : State) (pc : Word) (k : Nat) :
    memRead addr ((s.setPc pc).setStepCycles k) =
      onPair (fun t => (t.setPc pc).setStepCycles k) (memRead addr s) := by
  have h := memRead_withCore addr s ((s.setPc pc).setStepCycles k)
  rw [show s.withCore ((s.setPc pc).setStepCycles k) = (s.setPc pc).setStepCycles k from rfl] at h
  rw [h]
  cases hr : memRead addr s with
  | error e =>
    obtain ⟨kind, u⟩ := e
    rw [(memRead_error hr).1]
    rfl
  | ok r =>
    obtain ⟨d, s1⟩ := r
    have h1 := (memRead_core_kept hr).1
    simp only [onPair]
    rw [h1]
    rfl

/-- A write after a change `g` of the core's registers that leaves `odd` alone: it answers and changes the same, and a fault
leaves the same, with that change on top (R163). -/
theorem memWrite_changed {g : State → State} (addr : Word) (d : Byte) (s : State) (hs : g s = s.withCore (g s))
    (ho : (g s).odd = s.odd) (hg : ∀ u : State, (u.withCore s).withCore (g s) = g (u.withCore s)) :
    memWrite addr d (g s) = onPair g (memWrite addr d s) := by
  rw [hs, memWrite_withCore addr d s (g s) ho]
  cases hr : memWrite addr d s with
  | error e =>
    obtain ⟨kind, u⟩ := e
    have h1 := memWrite_error_core hr
    simp only [onPair]
    rw [h1, hg]
  | ok r =>
    obtain ⟨n, s1⟩ := r
    have h1 := (memWrite_core_kept hr).1
    simp only [onPair]
    rw [h1, hg]

/-- A write in the state the frame of an instruction prepares. -/
theorem memWrite_prepared (addr : Word) (d : Byte) (s : State) (pc : Word) (k : Nat) :
    memWrite addr d ((s.setPc pc).setStepCycles k) =
      onPair (fun t => (t.setPc pc).setStepCycles k) (memWrite addr d s) :=
  memWrite_changed (g := fun t => (t.setPc pc).setStepCycles k) addr d s rfl rfl fun _ => rfl

/-- A write in that state with the flags changed, as a read-modify-write makes it. -/
theorem memWrite_preparedFlags (addr : Word) (d : Byte) (s : State) (pc : Word) (k : Nat) (flags : Flags) :
    memWrite addr d (((s.setPc pc).setStepCycles k).setFlags flags) =
      onPair (fun t => ((t.setPc pc).setStepCycles k).setFlags flags) (memWrite addr d s) :=
  memWrite_changed (g := fun t => ((t.setPc pc).setStepCycles k).setFlags flags) addr d s rfl rfl fun _ => rfl

end Sys2Proof.Machine
end

