-- ==== Sys2Proof/Laws/Operands.lean ====
section
/-! SUPPORT. The frame of an instruction over the memory forms of the statements: the mode of a form answers EA and the page
cross and changes nothing (30_encoding.md R133–R142), and the operation then runs on the advanced PC and the row's cycles
(40_step.md R162–R166). -/

namespace Sys2Proof.Machine

/-- The state an operation starts from: PC past the instruction, the cycles of the row so far. -/
def State.prepared (s : State) (operands cycles : Nat) : State :=
  (s.setPc (s.pc + BitVec.ofNat 16 (1 + operands))).setStepCycles cycles

/-- The addressing mode of a memory form. -/
def Place.mode : Place → Mode
  | .zp b1 => modeZp b1
  | .zpX b1 => modeZpX b1
  | .zpY b1 => modeZpY b1
  | .abs addr16 => modeAbs addr16
  | .absX addr16 => modeAbsX addr16
  | .absY addr16 => modeAbsY addr16
  | .indX b1 => modeIndX b1
  | .indY b1 => modeIndY b1

/-- Masking a word to its page is comparing its high byte. -/
theorem pageCross_mask (a b : Word) : pageCross a b = ((a &&& 0xFF00) != (b &&& 0xFF00)) := by
  have h : ∀ w : Word, (w &&& 0xFF00) = highByte w ++ (0 : Byte) := by
    intro w
    apply BitVec.eq_of_getLsbD_eq
    intro i hi
    simp only [highByte, BitVec.getLsbD_and, BitVec.getLsbD_append, BitVec.getLsbD_setWidth, BitVec.getLsbD_ushiftRight]
    interval_cases i <;> simp
  have hinj : ∀ x y : Byte, (x ++ (0 : Byte) : BitVec 16) = y ++ (0 : Byte) ↔ x = y := by
    intro x y
    constructor
    · intro hxy
      apply BitVec.eq_of_getLsbD_eq
      intro i hi
      have := congrArg (fun w : BitVec 16 => w.getLsbD (8 + i)) hxy
      simp only [BitVec.getLsbD_append] at this
      rwa [if_neg (by omega), if_neg (by omega), Nat.add_sub_cancel_left] at this
    · rintro rfl; rfl
  rw [h a, h b]
  rw [Bool.eq_iff_iff]
  simp only [pageCross, bne_iff_ne, ne_eq, hinj]

/-- The mode of a memory form answers EA and whether a page was crossed, and changes nothing; it never faults (R322). -/
theorem placeMode_eq (p : Place) (s : State) : p.mode s = .ok (⟨.ram (p.ea s), p.crosses s⟩, s) := by
  cases p <;> simp only [Place.mode, Place.ea, Place.crosses, Place.base, modeZp, modeZpX, modeZpY, modeAbs, modeAbsX,
    modeAbsY, modeIndX_eq, modeIndY_eq, pageCross_mask, zext16]

/-- EA and the page cross depend on neither PC nor the cycle count. -/
theorem ea_prepared (p : Place) (s : State) (n k : Nat) :
    p.ea (s.prepared n k) = p.ea s ∧ p.crosses (s.prepared n k) = p.crosses s := by
  cases p <;> exact ⟨rfl, rfl⟩

/-- The advance of PC in one sum (R25). -/
theorem advance_pc (pc : Word) (n : Nat) : pc + 1 + BitVec.ofNat 16 n = pc + BitVec.ofNat 16 (1 + n) := by
  rw [BitVec.add_assoc]
  congr 1
  exact (BitVec.ofNat_add 1 n).symm

/-- An instruction with a memory operand is its operation on RAM(EA), from the prepared state. -/
theorem runInstr_place (base : Nat) (marked : Bool) (n : Nat) (p : Place) (op : Operation) (s : State) :
    runInstr base marked n p.mode op s =
      toOutcome (op s.pc ⟨.ram (p.ea s), p.crosses s⟩
        (s.prepared n (base + if marked && p.crosses s then 1 else 0))) := by
  have hpc := advance_pc s.pc n
  have hm := placeMode_eq p (s.prepared n base)
  obtain ⟨h1, h2⟩ := ea_prepared p s n base
  rw [h1, h2] at hm
  simp only [runInstr, hpc]
  rw [show (s.setPc (s.pc + BitVec.ofNat 16 (1 + n))).setStepCycles base = s.prepared n base from rfl, hm, ok_bind]
  cases marked && p.crosses s <;> rfl

/-- An instruction with no operand, or with an immediate, a register or a branch target, whose mode answers at once. -/
theorem runInstr_pure (base n : Nat) (mode : Mode) (op : Operation) (s : State) (m : Addressed)
    (h : mode (s.prepared n base) = .ok (m, s.prepared n base)) :
    runInstr base false n mode op s = toOutcome (op s.pc m (s.prepared n base)) := by
  have hpc := advance_pc s.pc n
  simp only [runInstr, hpc]
  rw [show (s.setPc (s.pc + BitVec.ofNat 16 (1 + n))).setStepCycles base = s.prepared n base from rfl, h]
  rfl

/-- An implied instruction is its operation, from the prepared state (R130). -/
theorem runInstr_implied (base : Nat) (op : Operation) (s : State) :
    runInstr base false 0 modeImp op s = toOutcome (op s.pc ⟨.nil, false⟩ (s.prepared 0 base)) :=
  runInstr_pure _ _ _ _ _ _ rfl

/-- An accumulator instruction is its operation on A, from the prepared state (R131). -/
theorem runInstr_accumulator (base : Nat) (op : Operation) (s : State) :
    runInstr base false 0 modeAcc op s = toOutcome (op s.pc ⟨.reg .a, false⟩ (s.prepared 0 base)) :=
  runInstr_pure _ _ _ _ _ _ rfl

/-- A branch is its operation on the target, which counts from the next instruction (R136). -/
theorem runInstr_relative (base : Nat) (op : Operation) (off : Byte) (s : State) :
    runInstr base false 1 (modeRel off) op s =
      toOutcome (op s.pc ⟨.ram (s.pc + 2 + sext16 off), pageCross (s.pc + 2) (s.pc + 2 + sext16 off)⟩ (s.prepared 1 base)) :=
  runInstr_pure _ _ _ _ _ _ rfl

/-- A read from the prepared state answers and changes what it would from the state itself. -/
theorem memRead_fromPrepared (addr : Word) (s : State) (n k : Nat) :
    memRead addr (s.prepared n k) =
      onPair (fun t => (t.setPc (s.pc + BitVec.ofNat 16 (1 + n))).setStepCycles k) (memRead addr s) :=
  memRead_prepared addr s _ k

/-- A write from the prepared state answers and changes what it would from the state itself. -/
theorem memWrite_fromPrepared (addr : Word) (d : Byte) (s : State) (n k : Nat) :
    memWrite addr d (s.prepared n k) =
      onPair (fun t => (t.setPc (s.pc + BitVec.ofNat 16 (1 + n))).setStepCycles k) (memWrite addr d s) :=
  memWrite_prepared addr d s _ k

/-! The three shapes of an instruction with an operand -/

/-- An immediate operand: the operation on the constant, which cannot fault (R132). -/
theorem readsImmediate {r : Row} {v : Byte} {op : Operation} {effect : Byte → State → State} {s : State}
    (hr : exec r.instr s = runInstr r.cycles false 1 (modeImm v) op s)
    (hop : ∀ pc0 c u, op pc0 ⟨.const v, c⟩ u = .ok (effect v u))
    (heff : ∀ m (t : State) pc k, effect m ((t.setPc pc).setStepCycles k) = { effect m t with pc := pc, stepCycles := k }) :
    match (Form.imm v).readFault s with
    | some e => exec r.instr s = faultAt e
        { s with
          pc := s.pc + BitVec.ofNat 16 (1 + (Form.imm v).bytes.length), stepCycles := r.cost ((Form.imm v).crosses s) }
    | none => ∃ m s1, (Form.imm v).read s = .ok (m, s1) ∧
        exec r.instr s = .next
          { effect m s1 with
            pc := s.pc + BitVec.ofNat 16 (1 + (Form.imm v).bytes.length),
            stepCycles := r.cost ((Form.imm v).crosses s) } := by
  refine ⟨v, s, rfl, ?_⟩
  rw [hr, runInstr_pure _ _ _ _ _ ⟨.const v, false⟩ rfl, hop, State.prepared, heff]
  simp [Row.cost, Form.crosses, Form.bytes, toOutcome]

/-- A memory operand that is read: the fault of the read where it has one, and else the effect (R163, R200). -/
theorem readsMemory {r : Row} {p : Place} {op : Operation} {effect : Byte → State → State} {s : State}
    (hr : exec r.instr s = runInstr r.cycles r.pageCycle p.bytes.length p.mode op s)
    (hop : ∀ pc0 c u, op pc0 ⟨.ram (p.ea s), c⟩ u = (memRead (p.ea s) u >>= fun r => .ok (effect r.1 r.2)))
    (heff : ∀ m (t : State) pc k, effect m ((t.setPc pc).setStepCycles k) = { effect m t with pc := pc, stepCycles := k }) :
    match (Form.mem p).readFault s with
    | some e => exec r.instr s = faultAt e
        { s with
          pc := s.pc + BitVec.ofNat 16 (1 + (Form.mem p).bytes.length), stepCycles := r.cost ((Form.mem p).crosses s) }
    | none => ∃ m s1, (Form.mem p).read s = .ok (m, s1) ∧
        exec r.instr s = .next
          { effect m s1 with
            pc := s.pc + BitVec.ofNat 16 (1 + (Form.mem p).bytes.length),
            stepCycles := r.cost ((Form.mem p).crosses s) } := by
  have h := memRead_fault (p.ea s) s
  simp only [hr, runInstr_place, hop, memRead_fromPrepared, Form.readFault, Form.read, Form.bytes, Form.crosses, Row.cost]
  cases hf : readFault s (p.ea s) with
  | some e =>
    rw [hf] at h
    simp only [h, onPair_error, error_bind, toOutcome]
    rfl
  | none =>
    rw [hf] at h
    obtain ⟨⟨m, s1⟩, h⟩ := h
    exact ⟨m, s1, h, by simp only [h, onPair_ok, ok_bind, heff, toOutcome]; rfl⟩

/-- A store: the fault of the write where it has one, and else what the bus write leaves (R163, R204). -/
theorem storesMemory {r : Row} {p : Place} {op : Operation} {value : State → Byte} {s : State}
    (hr : exec r.instr s = runInstr r.cycles r.pageCycle p.bytes.length p.mode op s)
    (hop : ∀ pc0 c u, op pc0 ⟨.ram (p.ea s), c⟩ u = writeOperand pc0 (.ram (p.ea s)) (value u) u)
    (hv : ∀ pc k, value ((s.setPc pc).setStepCycles k) = value s) :
    match writeFault s (p.ea s) (value s) with
    | some e => ∃ s1, memWrite (p.ea s) (value s) s = .error (.raised e s1) ∧
        exec r.instr s = faultAt e
          { s1 with pc := s.pc + BitVec.ofNat 16 (1 + p.bytes.length), stepCycles := r.cost (p.crosses s) }
    | none => ∃ s1, memWrite (p.ea s) (value s) s = .ok (stall s (p.ea s), s1) ∧
        exec r.instr s = .next
          { s1 with
            pc := s.pc + BitVec.ofNat 16 (1 + p.bytes.length),
            stepCycles := r.cost (p.crosses s) + stall s (p.ea s) } := by
  have h := memWrite_fault (p.ea s) (value s) s
  have hv' : ∀ n k, value (s.prepared n k) = value s := fun n k => hv _ k
  simp only [hr, runInstr_place, hop, hv', writeOperand, memWrite_fromPrepared, Row.cost]
  cases hf : writeFault s (p.ea s) (value s) with
  | some e =>
    rw [hf] at h
    obtain ⟨s1, h, -⟩ := h
    exact ⟨s1, h, by simp only [h, onPair_error, error_bind, toOutcome]; rfl⟩
  | none =>
    rw [hf] at h
    obtain ⟨⟨k, s1⟩, h⟩ := h
    have hk : k = stall s (p.ea s) := memWrite_cycles h
    rw [hk] at h
    exact ⟨s1, h, by simp only [h, onPair_ok, ok_bind, addCycles, toOutcome]; rfl⟩

/-- A read-modify-write on memory: the first fault of the MMC1 check, the read and the write, and else one read, one write and
the flags (R105, R165, R323). -/
theorem modifiesMemory {r : Row} {p : Place} {f : Byte → Flags → Byte × Flags} {op : Byte → Bool → Byte × Bool} {s : State}
    (hr : exec r.instr s = runInstr r.cycles r.pageCycle p.bytes.length p.mode (readModifyWrite f) s)
    (hf : ∀ m flags, f m flags = ((op m flags.c).1, { flags with c := (op m flags.c).2 })) :
    let pc := s.pc + BitVec.ofNat 16 (1 + p.bytes.length)
    let cost := r.cost (p.crosses s)
    match rmwFault s (p.ea s), readFault s (p.ea s) with
    | some e, _ => exec r.instr s = faultAt e { s with pc := pc, stepCycles := cost }
    | none, some e => exec r.instr s = faultAt e { s with pc := pc, stepCycles := cost }
    | none, none => ∃ m s1, memRead (p.ea s) s = .ok (m, s1) ∧
        match writeFault s1 (p.ea s) (op m s.flags.c).1 with
        | some e => exec r.instr s = faultAt e
            { s1 with flags := { s.flags with c := (op m s.flags.c).2 }, pc := pc, stepCycles := cost }
        | none => ∃ s2, memWrite (p.ea s) (op m s.flags.c).1 s1 = .ok (0, s2) ∧
            exec r.instr s = .next
              { s2 with
                flags := { s.flags with
                  n := (op m s.flags.c).1.getLsbD 7, z := decide ((op m s.flags.c).1 = 0), c := (op m s.flags.c).2 },
                pc := pc, stepCycles := cost } := by
  have hc : ∀ n k, checkRmw (.ram (p.ea s)) (s.prepared n k) =
      match rmwFault s (p.ea s) with
      | some e => .error (.raised e (s.prepared n k))
      | none => .ok () := by
    intro n k
    simp only [checkRmw, rmwFault, State.prepared, State.setStepCycles_cart, State.setPc_cart]
    by_cases hx : s.cart.mapper = .mmc1 ∧ 0x8000 ≤ (p.ea s).toNat
    · simp only [if_pos hx]
      exact (if_pos hx).trans rfl
    · simp only [if_neg hx]
      exact if_neg hx
  have hread := memRead_fault (p.ea s) s
  intro pc cost
  simp only [hr, runInstr_place, readModifyWrite, hc, readOperand, memRead_fromPrepared]
  cases hm : rmwFault s (p.ea s) with
  | some e => simp only [error_bind, toOutcome]; rfl
  | none =>
    cases hrf : readFault s (p.ea s) with
    | some e =>
      rw [hrf] at hread
      simp only [hread, onPair_error, ok_bind, error_bind, toOutcome]
      rfl
    | none =>
      rw [hrf] at hread
      obtain ⟨⟨m, s1⟩, hread⟩ := hread
      refine ⟨m, s1, hread, ?_⟩
      have hflags : s1.flags = s.flags := by rw [(memRead_core_kept hread).1]; rfl
      have hw := memWrite_fault (p.ea s) (op m s.flags.c).1 s1
      have hea : p.ea s ≠ 0x4014 := by
        intro h
        rw [h] at hrf
        simp [readFault] at hrf
      simp only [hread, onPair_ok, ok_bind, hf, writeOperand, State.setStepCycles_flags, State.setPc_flags, hflags,
        memWrite_preparedFlags]
      cases hwf : writeFault s1 (p.ea s) (op m s.flags.c).1 with
      | some e =>
        rw [hwf] at hw
        obtain ⟨u, hw, hu⟩ := hw
        rw [hu hea] at hw
        simp only [hw, onPair_error, error_bind, toOutcome]
        rfl
      | none =>
        rw [hwf] at hw
        obtain ⟨⟨k, s2⟩, hw⟩ := hw
        have hk : k = 0 := by rw [memWrite_cycles hw, if_neg hea]
        subst hk
        refine ⟨s2, hw, ?_⟩
        have hz : ∀ v : Byte, (v == 0) = decide (v = 0) := fun v => by rw [Bool.eq_iff_iff]; simp
        simp only [hw, onPair_ok, ok_bind, addCycles, toOutcome, setNZ, hz]
        rfl

end Sys2Proof.Machine
end

