-- ==== Sys2Proof/Laws/Timing.lean ====
section
/-! SUPPORT. What the PPU dots and the bookkeeping after a step do (40_step.md R167, R168; 60_exceptions.md R340): the position
moves by the number of dots, and only the NMI latch and three status bits can change with it. -/

namespace Sys2Proof.Machine

/-- Everything a dot can change: the NMI latch, status bits 7..5 and the position (R340). -/
theorem ppuDot_frame (vb : Fin 2) (s : State) :
    ∃ latch vblank zero overflow scanline dot,
      ppuDot vb s = (s.setNmiLatch latch).setPpu
        { s.ppu with vblank := vblank, spriteZero := zero, spriteOverflow := overflow, scanline := scanline, dot := dot } := by
  simp only [ppuDot, advanceDot]
  split_ifs
  all_goals exact ⟨_, _, _, _, _, _, rfl⟩

/-- Everything a run of dots can change. -/
theorem ppuDots_frame (vb : Fin 2) (n : Nat) (s : State) :
    ∃ latch vblank zero overflow scanline dot,
      ppuDots vb n s = (s.setNmiLatch latch).setPpu
        { s.ppu with vblank := vblank, spriteZero := zero, spriteOverflow := overflow, scanline := scanline, dot := dot } := by
  induction n generalizing s with
  | zero => exact ⟨s.nmiLatch, s.ppu.vblank, s.ppu.spriteZero, s.ppu.spriteOverflow, s.ppu.scanline, s.ppu.dot, rfl⟩
  | succ n ih =>
    obtain ⟨l, v, z, o, sc, d, h⟩ := ppuDot_frame vb s
    obtain ⟨l', v', z', o', sc', d', h'⟩ := ih (ppuDot vb s)
    exact ⟨l', v', z', o', sc', d', by rw [ppuDots, h', h]; rfl⟩

/-- Dots one after the other. -/
theorem ppuDots_add (vb : Fin 2) (m n : Nat) (s : State) : ppuDots vb (m + n) s = ppuDots vb n (ppuDots vb m s) := by
  induction m generalizing s with
  | zero => rw [Nat.zero_add]; rfl
  | succ m ih => rw [show m + 1 + n = m + n + 1 by omega, ppuDots, ppuDots, ih]

/-- The position moves by one dot, modulo a frame (R340). -/
theorem ppuDot_position (vb : Fin 2) (s : State) (hs : s.ppu.scanline < 262) (hd : s.ppu.dot < 341) :
    (ppuDot vb s).ppu.position = (s.ppu.position + 1) % 89342 ∧ (ppuDot vb s).ppu.scanline < 262 ∧
      (ppuDot vb s).ppu.dot < 341 := by
  simp only [ppuDot, advanceDot, Ppu.position]
  split_ifs <;> simp only [State.setPpu_ppu] <;> omega

/-- The position moves by the number of dots, modulo a frame (R340). -/
theorem ppuDots_position (vb : Fin 2) (n : Nat) (s : State) (hs : s.ppu.scanline < 262) (hd : s.ppu.dot < 341) :
    (ppuDots vb n s).ppu.position = (s.ppu.position + n) % 89342 ∧ (ppuDots vb n s).ppu.scanline < 262 ∧
      (ppuDots vb n s).ppu.dot < 341 := by
  induction n generalizing s with
  | zero =>
    refine ⟨?_, hs, hd⟩
    simp only [ppuDots, Ppu.position]
    omega
  | succ n ih =>
    obtain ⟨h1, h2, h3⟩ := ppuDot_position vb s hs hd
    obtain ⟨h4, h5⟩ := ih (ppuDot vb s) h2 h3
    rw [ppuDots]
    exact ⟨by rw [h4, h1]; omega, h5⟩

/-- The dots keep the invariant of the memories and counters. -/
theorem ppuDots_busInv (vb : Fin 2) (n : Nat) {s : State} (hi : s.busInv) : (ppuDots vb n s).busInv := by
  obtain ⟨l, v, z, o, sc, d, h⟩ := ppuDots_frame vb n s
  have hb := (busInv_iff s).mp hi
  obtain ⟨hm, ⟨c1, c2, c3, c4⟩, hc⟩ := hb
  obtain ⟨-, h1, h2⟩ := ppuDots_position vb n s c1 c2
  rw [busInv_iff]
  rw [h] at h1 h2 ⊢
  exact ⟨hm, ⟨h1, h2, c3, c4⟩, hc⟩

/-- Everything the bookkeeping after a step can change (R167, R168). -/
theorem finishStep_frame (vb : Fin 2) (s : State) :
    ∃ latch vblank zero overflow scanline dot,
      finishStep vb s = ((countCycles s).setNmiLatch latch).setPpu
        { s.ppu with vblank := vblank, spriteZero := zero, spriteOverflow := overflow, scanline := scanline, dot := dot } :=
  ppuDots_frame vb (3 * s.stepCycles) (countCycles s)

end Sys2Proof.Machine
end

