-- ==== Sys2Proof/Laws/Exec.lean ====
section
/-! SUPPORT. What the execution of any instruction can do, said once: it is made of bus reads, bus writes and changes of the
core's own registers and the cycle count. So a property that those keep holds after `exec`, after an interrupt entry and after
a step's operation, and of the state a fault leaves, but for the end of the run on top of it (40_step.md R170,
60_exceptions.md R323). -/

namespace Sys2Proof.Machine

/-- P holds of the state of a result: the answer's, which `π` finds, or the one a fault leaves. -/
def Leaves {α : Type} (P : State → Prop) (π : α → State) : Result α → Prop
  | .ok a => P (π a)
  | .error (.raised _ t) => P t

/-- P holds of the state of an outcome; a fault's is the end of the run on a state that has it (R320). -/
def After (P : State → Prop) : Host.Outcome State Fault Refusal → Prop
  | .next t => P t
  | .fault (.raised kind t) => ∃ u, P u ∧ t = enterFaulted kind u
  | .refused _ => True

theorem leaves_bind {α β : Type} {P : State → Prop} {π : α → State} {ρ : β → State} {x : Result α} {f : α → Result β}
    (h : Leaves P π x) (hf : ∀ a, P (π a) → Leaves P ρ (f a)) : Leaves P ρ (x >>= f) := by
  cases x with
  | ok a => exact hf a h
  | error e => exact h

theorem after_toOutcome {P : State → Prop} {x : Result State} (h : Leaves P id x) : After P (toOutcome x) := by
  cases x with
  | ok t => exact h
  | error e =>
    obtain ⟨kind, u⟩ := e
    exact ⟨u, h, rfl⟩

/-- A property of states that a bus read, a bus write, a write of OAM and a change of A, X, Y, SP, PC, the flags or the cycle
count keep. -/
structure Kept (P : State → Prop) : Prop where
  core : ∀ {s : State} a x y sp pc flags k, P s →
    P { s with a := a, x := x, y := y, sp := sp, pc := pc, flags := flags, stepCycles := k }
  read : ∀ {addr d} {s t : State}, memRead addr s = .ok (d, t) → P s → P t
  write : ∀ {addr d k} {s t : State}, memWrite addr d s = .ok (k, t) → P s → P t
  oam : ∀ {s : State} i b, i < 256 → P s → P (s.setPpu { s.ppu with oam := s.ppu.oam.write i b })

namespace Kept

variable {P : State → Prop} (hk : Kept P)
include hk

/-- A mode keeps P. -/
def Modes (_ : Kept P) (mode : Mode) : Prop := ∀ s, P s → Leaves P Prod.snd (mode s)

/-- An operation keeps P. -/
def Operations (_ : Kept P) (op : Operation) : Prop := ∀ pc0 m s, P s → Leaves P id (op pc0 m s)

/-- A bus read keeps P, be it completed or faulting. -/
theorem reads (addr : Word) {s : State} (hp : P s) : Leaves P Prod.snd (memRead addr s) := by
  cases h : memRead addr s with
  | ok r => exact hk.read h hp
  | error e =>
    obtain ⟨kind, u⟩ := e
    rw [(memRead_error h).1]
    exact hp

/-- A bus write keeps P, be it completed or faulting. -/
theorem writes (addr : Word) (d : Byte) {s : State} (hp : P s) : Leaves P Prod.snd (memWrite addr d s) := by
  cases h : memWrite addr d s with
  | ok r => exact hk.write h hp
  | error e =>
    obtain ⟨kind, u⟩ := e
    exact memWrite_error hk.read hk.oam h hp

theorem still {mode : Mode} (h : ∀ s, ∃ m, mode s = .ok (m, s)) : hk.Modes mode := by
  intro s hp
  obtain ⟨m, h⟩ := h s
  rw [h]
  exact hp

theorem modeImp : hk.Modes Machine.modeImp := hk.still fun _ => ⟨_, rfl⟩
theorem modeAcc : hk.Modes Machine.modeAcc := hk.still fun _ => ⟨_, rfl⟩
theorem modeImm (v : Byte) : hk.Modes (Machine.modeImm v) := hk.still fun _ => ⟨_, rfl⟩
theorem modeZp (zp : Byte) : hk.Modes (Machine.modeZp zp) := hk.still fun _ => ⟨_, rfl⟩
theorem modeZpX (zp : Byte) : hk.Modes (Machine.modeZpX zp) := hk.still fun _ => ⟨_, rfl⟩
theorem modeZpY (zp : Byte) : hk.Modes (Machine.modeZpY zp) := hk.still fun _ => ⟨_, rfl⟩
theorem modeRel (off : Byte) : hk.Modes (Machine.modeRel off) := hk.still fun _ => ⟨_, rfl⟩
theorem modeAbs (addr : Word) : hk.Modes (Machine.modeAbs addr) := hk.still fun _ => ⟨_, rfl⟩
theorem modeAbsX (addr : Word) : hk.Modes (Machine.modeAbsX addr) := hk.still fun _ => ⟨_, rfl⟩
theorem modeAbsY (addr : Word) : hk.Modes (Machine.modeAbsY addr) := hk.still fun _ => ⟨_, rfl⟩
theorem modeIndX (zp : Byte) : hk.Modes (Machine.modeIndX zp) := hk.still fun s => ⟨_, modeIndX_eq zp s⟩
theorem modeIndY (zp : Byte) : hk.Modes (Machine.modeIndY zp) := hk.still fun s => ⟨_, modeIndY_eq zp s⟩

theorem modeInd (addr : Word) : hk.Modes (Machine.modeInd addr) := fun _ hp =>
  leaves_bind (hk.reads _ hp) fun _ hp => leaves_bind (hk.reads _ hp) fun _ hp => hp

theorem operandRead (pc0 : Word) (o : Operand) {s : State} (hp : P s) : Leaves P Prod.snd (readOperand pc0 o s) := by
  cases o with
  | ram ea => exact hk.reads ea hp
  | reg r => exact hp
  | const k => exact hp
  | nil => exact hp

theorem regWrite (r : Reg) (v : Byte) {s : State} (hp : P s) : P (writeReg r v s) := by
  cases r
  · exact hk.core v s.x s.y s.sp s.pc s.flags s.stepCycles hp
  · exact hk.core s.a v s.y s.sp s.pc s.flags s.stepCycles hp
  · exact hk.core s.a s.x v s.sp s.pc s.flags s.stepCycles hp

theorem flagsWrite (f : Flags) {s : State} (hp : P s) : P (s.setFlags f) :=
  hk.core s.a s.x s.y s.sp s.pc f s.stepCycles hp

theorem pcWrite (pc : Word) {s : State} (hp : P s) : P (s.setPc pc) :=
  hk.core s.a s.x s.y s.sp pc s.flags s.stepCycles hp

theorem spWrite (sp : Byte) {s : State} (hp : P s) : P (s.setSp sp) :=
  hk.core s.a s.x s.y sp s.pc s.flags s.stepCycles hp

theorem cyclesWrite (k : Nat) {s : State} (hp : P s) : P (s.setStepCycles k) :=
  hk.core s.a s.x s.y s.sp s.pc s.flags k hp

theorem operandWrite (pc0 : Word) (o : Operand) (v : Byte) {s : State} (hp : P s) : Leaves P id (writeOperand pc0 o v s) := by
  cases o with
  | ram ea => exact leaves_bind (hk.writes ea v hp) fun _ hp => hk.cyclesWrite _ hp
  | reg r => exact hk.regWrite r v hp
  | const k => exact hp
  | nil => exact hp

/-- What reads its operand and then changes the core's registers. -/
theorem reading {op : Operation} (f : Byte → State → State) (hf : ∀ v {s}, P s → P (f v s))
    (h : ∀ pc0 m s, op pc0 m s = (readOperand pc0 m.opnd s >>= fun r => .ok (f r.1 r.2))) : hk.Operations op := by
  intro pc0 m s hp
  rw [h]
  exact leaves_bind (hk.operandRead pc0 m.opnd hp) fun r hp => hf r.1 hp

theorem load (r : Reg) : hk.Operations (loadRegister r) :=
  hk.reading (fun v s => (writeReg r v s).setFlags (setNZ v s.flags)) (fun v _ hp => hk.flagsWrite _ (hk.regWrite r v hp))
    fun _ _ _ => rfl

theorem accumulated (f : Byte → Byte → Flags → Byte × Flags) : hk.Operations (accumulate f) :=
  hk.reading (fun v s => (s.setA (f s.a v s.flags).1).setFlags (f s.a v s.flags).2)
    (fun _ _ hp => hk.flagsWrite _ (hk.regWrite .a _ hp)) fun _ _ _ => rfl

theorem logical (f : Byte → Byte → Byte) : hk.Operations (logic f) := hk.accumulated _

theorem tested (f : Byte → State → Flags) : hk.Operations (testOperand f) :=
  hk.reading (fun v s => s.setFlags (f v s)) (fun _ _ hp => hk.flagsWrite _ hp) fun _ _ _ => rfl

theorem store (v : State → Byte) : hk.Operations fun pc0 m s => writeOperand pc0 m.opnd (v s) s :=
  fun pc0 m _ hp => hk.operandWrite pc0 m.opnd _ hp

omit hk in
theorem rmwChecked (o : Operand) {s : State} (hp : P s) : Leaves P (fun _ => s) (checkRmw o s) := by
  cases o with
  | ram ea =>
    simp only [checkRmw]
    split <;> exact hp
  | reg r => exact hp
  | const k => exact hp
  | nil => exact hp

theorem modified (f : Byte → Flags → Byte × Flags) : hk.Operations (readModifyWrite f) := fun pc0 m _ hp =>
  leaves_bind (rmwChecked m.opnd hp) fun _ hp => leaves_bind (hk.operandRead pc0 m.opnd hp) fun _ hp =>
    leaves_bind (hk.operandWrite pc0 m.opnd _ (hk.flagsWrite _ hp)) fun _ hp => hk.flagsWrite _ hp

/-- What only changes the core's registers. -/
theorem pureOp {op : Operation} (f : Word → Addressed → State → State) (hf : ∀ pc0 m {s}, P s → P (f pc0 m s))
    (h : ∀ pc0 m s, op pc0 m s = .ok (f pc0 m s)) : hk.Operations op := by
  intro pc0 m s hp
  rw [h]
  exact hf _ _ hp

theorem transfer (r : Reg) (v : State → Byte) : hk.Operations (transferTo r v) :=
  hk.pureOp (fun _ _ s => (writeReg r (v s) s).setFlags (setNZ (v s) s.flags))
    (fun _ _ _ hp => hk.flagsWrite _ (hk.regWrite r _ hp)) fun _ _ _ => rfl

theorem stepped (r : Reg) (by_ : Byte) : hk.Operations (stepRegister r by_) :=
  hk.pureOp (fun _ _ s => (writeReg r (readReg r s + by_) s).setFlags (setNZ (readReg r s + by_) s.flags))
    (fun _ _ _ hp => hk.flagsWrite _ (hk.regWrite r _ hp)) fun _ _ _ => rfl

theorem flagged (f : Flags → Flags) : hk.Operations (changeFlags f) :=
  hk.pureOp (fun _ _ s => s.setFlags (f s.flags)) (fun _ _ _ hp => hk.flagsWrite _ hp) fun _ _ _ => rfl

theorem txs : hk.Operations opTxs := hk.pureOp (fun _ _ s => s.setSp s.x) (fun _ _ _ hp => hk.spWrite _ hp) fun _ _ _ => rfl

theorem nop : hk.Operations opNop := hk.pureOp (fun _ _ s => s) (fun _ _ _ hp => hp) fun _ _ _ => rfl

theorem pushed (v : Byte) {s : State} (hp : P s) : Leaves P id (push v s) :=
  leaves_bind (hk.writes _ v hp) fun _ hp => hk.spWrite _ hp

theorem pushed16 (v : Word) {s : State} (hp : P s) : Leaves P id (push16 v s) :=
  leaves_bind (hk.pushed _ hp) fun _ hp => hk.pushed _ hp

theorem pulled {s : State} (hp : P s) : Leaves P Prod.snd (pull s) := hk.reads _ (hk.spWrite _ hp)

theorem pulled16 {s : State} (hp : P s) : Leaves P Prod.snd (pull16 s) :=
  leaves_bind (hk.pulled hp) fun _ hp => leaves_bind (hk.pulled hp) fun _ hp => hp

theorem pha : hk.Operations opPha := fun _ _ _ hp => hk.pushed _ hp

theorem php : hk.Operations opPhp := fun _ _ _ hp => hk.pushed _ hp

theorem pla : hk.Operations opPla := fun _ _ _ hp =>
  leaves_bind (hk.pulled hp) fun _ hp => hk.flagsWrite _ (hk.regWrite .a _ hp)

theorem plp : hk.Operations opPlp := fun _ _ _ hp => leaves_bind (hk.pulled hp) fun _ hp => hk.flagsWrite _ hp

theorem rts : hk.Operations opRts := fun _ _ _ hp => leaves_bind (hk.pulled16 hp) fun _ hp => hk.pcWrite _ hp

theorem rti : hk.Operations opRti := fun _ _ _ hp =>
  leaves_bind (hk.pulled hp) fun _ hp => leaves_bind (hk.pulled16 (hk.flagsWrite _ hp)) fun _ hp => hk.pcWrite _ hp

theorem jumped (vec : Word) {s : State} (hp : P s) : Leaves P id (jumpThrough vec s) :=
  leaves_bind (hk.reads _ hp) fun _ hp => leaves_bind (hk.reads _ hp) fun _ hp => hk.pcWrite _ hp

theorem exception (returnPc : Word) (status : Byte) (vec : Word) {s : State} (hp : P s) :
    Leaves P id (takeException returnPc status vec s) :=
  leaves_bind (hk.pushed16 _ hp) fun _ hp => leaves_bind (hk.pushed _ hp) fun _ hp => hk.jumped _ (hk.flagsWrite _ hp)

theorem brk : hk.Operations opBrk := fun _ _ _ hp => hk.exception _ _ _ hp

/-- An interrupt entry keeps P. -/
theorem entry (vec : Word) {s : State} (hp : P s) : Leaves P id (interruptEntry vec s) :=
  hk.exception _ _ _ (hk.cyclesWrite 7 hp)

theorem target {f : Word → State → Result State} (hf : ∀ ea {s}, P s → Leaves P id (f ea s)) :
    hk.Operations (withTarget f) := by
  intro pc0 m s hp
  simp only [withTarget]
  split
  · exact hf _ hp
  · exact hp

theorem jmp : hk.Operations opJmp := hk.target fun ea _ hp => hk.pcWrite ea hp

theorem jsr : hk.Operations opJsr := fun pc0 m s hp =>
  hk.target (f := fun ea s => do .ok ((← push16 (pc0 + 2) s).setPc ea))
    (fun ea _ hp => leaves_bind (hk.pushed16 _ hp) fun _ hp => hk.pcWrite ea hp) pc0 m s hp

theorem branched (cond : State → Bool) : hk.Operations (branch cond) := by
  intro pc0 m s hp
  simp only [branch]
  split
  · exact hk.target (f := fun ea s => .ok ((addCycles (if m.cross then 2 else 1) s).setPc ea))
      (fun ea _ hp => hk.pcWrite ea (hk.cyclesWrite _ hp)) _ _ _ hp
  · exact hp

theorem lda : hk.Operations opLda := hk.load _
theorem ldx : hk.Operations opLdx := hk.load _
theorem ldy : hk.Operations opLdy := hk.load _
theorem sta : hk.Operations opSta := hk.store _
theorem stx : hk.Operations opStx := hk.store _
theorem sty : hk.Operations opSty := hk.store _
theorem tax : hk.Operations opTax := hk.transfer _ _
theorem tay : hk.Operations opTay := hk.transfer _ _
theorem txa : hk.Operations opTxa := hk.transfer _ _
theorem tya : hk.Operations opTya := hk.transfer _ _
theorem tsx : hk.Operations opTsx := hk.transfer _ _
theorem adc : hk.Operations opAdc := hk.accumulated _
theorem sbc : hk.Operations opSbc := hk.accumulated _
theorem and : hk.Operations opAnd := hk.logical _
theorem ora : hk.Operations opOra := hk.logical _
theorem eor : hk.Operations opEor := hk.logical _
theorem bit : hk.Operations opBit := hk.tested _
theorem cmp : hk.Operations opCmp := hk.tested _
theorem cpx : hk.Operations opCpx := hk.tested _
theorem cpy : hk.Operations opCpy := hk.tested _
theorem inc : hk.Operations opInc := hk.modified _
theorem dec : hk.Operations opDec := hk.modified _
theorem inx : hk.Operations opInx := hk.stepped _ _
theorem iny : hk.Operations opIny := hk.stepped _ _
theorem dex : hk.Operations opDex := hk.stepped _ _
theorem dey : hk.Operations opDey := hk.stepped _ _
theorem asl : hk.Operations opAsl := hk.modified _
theorem lsr : hk.Operations opLsr := hk.modified _
theorem rol : hk.Operations opRol := hk.modified _
theorem ror : hk.Operations opRor := hk.modified _
theorem bcc : hk.Operations opBcc := hk.branched _
theorem bcs : hk.Operations opBcs := hk.branched _
theorem beq : hk.Operations opBeq := hk.branched _
theorem bmi : hk.Operations opBmi := hk.branched _
theorem bne : hk.Operations opBne := hk.branched _
theorem bpl : hk.Operations opBpl := hk.branched _
theorem bvc : hk.Operations opBvc := hk.branched _
theorem bvs : hk.Operations opBvs := hk.branched _
theorem clc : hk.Operations opClc := hk.flagged _
theorem sec : hk.Operations opSec := hk.flagged _
theorem cli : hk.Operations opCli := hk.flagged _
theorem sei : hk.Operations opSei := hk.flagged _
theorem cld : hk.Operations opCld := hk.flagged _
theorem sed : hk.Operations opSed := hk.flagged _
theorem clv : hk.Operations opClv := hk.flagged _

theorem run {base : Nat} {marked : Bool} {n : Nat} {mode : Mode} {op : Operation} {s : State} (hm : hk.Modes mode)
    (ho : hk.Operations op) (hp : P s) : After P (runInstr base marked n mode op s) := by
  refine after_toOutcome (leaves_bind (hm _ (hk.cyclesWrite base (hk.pcWrite _ hp))) fun r hp => ho _ _ _ ?_)
  split
  · exact hk.cyclesWrite _ hp
  · exact hp

/-- Every instruction keeps P. -/
theorem exec (i : Instr) {s : State} (hp : P s) : After P (exec i s) := by
  cases i with
  | ldaImm _ => exact hk.run (hk.modeImm _) hk.lda hp
  | ldaZp _ => exact hk.run (hk.modeZp _) hk.lda hp
  | ldaZpX _ => exact hk.run (hk.modeZpX _) hk.lda hp
  | ldaAbs _ => exact hk.run (hk.modeAbs _) hk.lda hp
  | ldaAbsX _ => exact hk.run (hk.modeAbsX _) hk.lda hp
  | ldaAbsY _ => exact hk.run (hk.modeAbsY _) hk.lda hp
  | ldaIndX _ => exact hk.run (hk.modeIndX _) hk.lda hp
  | ldaIndY _ => exact hk.run (hk.modeIndY _) hk.lda hp
  | ldxImm _ => exact hk.run (hk.modeImm _) hk.ldx hp
  | ldxZp _ => exact hk.run (hk.modeZp _) hk.ldx hp
  | ldxZpY _ => exact hk.run (hk.modeZpY _) hk.ldx hp
  | ldxAbs _ => exact hk.run (hk.modeAbs _) hk.ldx hp
  | ldxAbsY _ => exact hk.run (hk.modeAbsY _) hk.ldx hp
  | ldyImm _ => exact hk.run (hk.modeImm _) hk.ldy hp
  | ldyZp _ => exact hk.run (hk.modeZp _) hk.ldy hp
  | ldyZpX _ => exact hk.run (hk.modeZpX _) hk.ldy hp
  | ldyAbs _ => exact hk.run (hk.modeAbs _) hk.ldy hp
  | ldyAbsX _ => exact hk.run (hk.modeAbsX _) hk.ldy hp
  | staZp _ => exact hk.run (hk.modeZp _) hk.sta hp
  | staZpX _ => exact hk.run (hk.modeZpX _) hk.sta hp
  | staAbs _ => exact hk.run (hk.modeAbs _) hk.sta hp
  | staAbsX _ => exact hk.run (hk.modeAbsX _) hk.sta hp
  | staAbsY _ => exact hk.run (hk.modeAbsY _) hk.sta hp
  | staIndX _ => exact hk.run (hk.modeIndX _) hk.sta hp
  | staIndY _ => exact hk.run (hk.modeIndY _) hk.sta hp
  | stxZp _ => exact hk.run (hk.modeZp _) hk.stx hp
  | stxZpY _ => exact hk.run (hk.modeZpY _) hk.stx hp
  | stxAbs _ => exact hk.run (hk.modeAbs _) hk.stx hp
  | styZp _ => exact hk.run (hk.modeZp _) hk.sty hp
  | styZpX _ => exact hk.run (hk.modeZpX _) hk.sty hp
  | styAbs _ => exact hk.run (hk.modeAbs _) hk.sty hp
  | tax => exact hk.run (hk.modeImp) hk.tax hp
  | tay => exact hk.run (hk.modeImp) hk.tay hp
  | txa => exact hk.run (hk.modeImp) hk.txa hp
  | tya => exact hk.run (hk.modeImp) hk.tya hp
  | tsx => exact hk.run (hk.modeImp) hk.tsx hp
  | txs => exact hk.run (hk.modeImp) hk.txs hp
  | pha => exact hk.run (hk.modeImp) hk.pha hp
  | php => exact hk.run (hk.modeImp) hk.php hp
  | pla => exact hk.run (hk.modeImp) hk.pla hp
  | plp => exact hk.run (hk.modeImp) hk.plp hp
  | adcImm _ => exact hk.run (hk.modeImm _) hk.adc hp
  | adcZp _ => exact hk.run (hk.modeZp _) hk.adc hp
  | adcZpX _ => exact hk.run (hk.modeZpX _) hk.adc hp
  | adcAbs _ => exact hk.run (hk.modeAbs _) hk.adc hp
  | adcAbsX _ => exact hk.run (hk.modeAbsX _) hk.adc hp
  | adcAbsY _ => exact hk.run (hk.modeAbsY _) hk.adc hp
  | adcIndX _ => exact hk.run (hk.modeIndX _) hk.adc hp
  | adcIndY _ => exact hk.run (hk.modeIndY _) hk.adc hp
  | sbcImm _ => exact hk.run (hk.modeImm _) hk.sbc hp
  | sbcZp _ => exact hk.run (hk.modeZp _) hk.sbc hp
  | sbcZpX _ => exact hk.run (hk.modeZpX _) hk.sbc hp
  | sbcAbs _ => exact hk.run (hk.modeAbs _) hk.sbc hp
  | sbcAbsX _ => exact hk.run (hk.modeAbsX _) hk.sbc hp
  | sbcAbsY _ => exact hk.run (hk.modeAbsY _) hk.sbc hp
  | sbcIndX _ => exact hk.run (hk.modeIndX _) hk.sbc hp
  | sbcIndY _ => exact hk.run (hk.modeIndY _) hk.sbc hp
  | andImm _ => exact hk.run (hk.modeImm _) hk.and hp
  | andZp _ => exact hk.run (hk.modeZp _) hk.and hp
  | andZpX _ => exact hk.run (hk.modeZpX _) hk.and hp
  | andAbs _ => exact hk.run (hk.modeAbs _) hk.and hp
  | andAbsX _ => exact hk.run (hk.modeAbsX _) hk.and hp
  | andAbsY _ => exact hk.run (hk.modeAbsY _) hk.and hp
  | andIndX _ => exact hk.run (hk.modeIndX _) hk.and hp
  | andIndY _ => exact hk.run (hk.modeIndY _) hk.and hp
  | oraImm _ => exact hk.run (hk.modeImm _) hk.ora hp
  | oraZp _ => exact hk.run (hk.modeZp _) hk.ora hp
  | oraZpX _ => exact hk.run (hk.modeZpX _) hk.ora hp
  | oraAbs _ => exact hk.run (hk.modeAbs _) hk.ora hp
  | oraAbsX _ => exact hk.run (hk.modeAbsX _) hk.ora hp
  | oraAbsY _ => exact hk.run (hk.modeAbsY _) hk.ora hp
  | oraIndX _ => exact hk.run (hk.modeIndX _) hk.ora hp
  | oraIndY _ => exact hk.run (hk.modeIndY _) hk.ora hp
  | eorImm _ => exact hk.run (hk.modeImm _) hk.eor hp
  | eorZp _ => exact hk.run (hk.modeZp _) hk.eor hp
  | eorZpX _ => exact hk.run (hk.modeZpX _) hk.eor hp
  | eorAbs _ => exact hk.run (hk.modeAbs _) hk.eor hp
  | eorAbsX _ => exact hk.run (hk.modeAbsX _) hk.eor hp
  | eorAbsY _ => exact hk.run (hk.modeAbsY _) hk.eor hp
  | eorIndX _ => exact hk.run (hk.modeIndX _) hk.eor hp
  | eorIndY _ => exact hk.run (hk.modeIndY _) hk.eor hp
  | bitZp _ => exact hk.run (hk.modeZp _) hk.bit hp
  | bitAbs _ => exact hk.run (hk.modeAbs _) hk.bit hp
  | cmpImm _ => exact hk.run (hk.modeImm _) hk.cmp hp
  | cmpZp _ => exact hk.run (hk.modeZp _) hk.cmp hp
  | cmpZpX _ => exact hk.run (hk.modeZpX _) hk.cmp hp
  | cmpAbs _ => exact hk.run (hk.modeAbs _) hk.cmp hp
  | cmpAbsX _ => exact hk.run (hk.modeAbsX _) hk.cmp hp
  | cmpAbsY _ => exact hk.run (hk.modeAbsY _) hk.cmp hp
  | cmpIndX _ => exact hk.run (hk.modeIndX _) hk.cmp hp
  | cmpIndY _ => exact hk.run (hk.modeIndY _) hk.cmp hp
  | cpxImm _ => exact hk.run (hk.modeImm _) hk.cpx hp
  | cpxZp _ => exact hk.run (hk.modeZp _) hk.cpx hp
  | cpxAbs _ => exact hk.run (hk.modeAbs _) hk.cpx hp
  | cpyImm _ => exact hk.run (hk.modeImm _) hk.cpy hp
  | cpyZp _ => exact hk.run (hk.modeZp _) hk.cpy hp
  | cpyAbs _ => exact hk.run (hk.modeAbs _) hk.cpy hp
  | incZp _ => exact hk.run (hk.modeZp _) hk.inc hp
  | incZpX _ => exact hk.run (hk.modeZpX _) hk.inc hp
  | incAbs _ => exact hk.run (hk.modeAbs _) hk.inc hp
  | incAbsX _ => exact hk.run (hk.modeAbsX _) hk.inc hp
  | decZp _ => exact hk.run (hk.modeZp _) hk.dec hp
  | decZpX _ => exact hk.run (hk.modeZpX _) hk.dec hp
  | decAbs _ => exact hk.run (hk.modeAbs _) hk.dec hp
  | decAbsX _ => exact hk.run (hk.modeAbsX _) hk.dec hp
  | inx => exact hk.run (hk.modeImp) hk.inx hp
  | iny => exact hk.run (hk.modeImp) hk.iny hp
  | dex => exact hk.run (hk.modeImp) hk.dex hp
  | dey => exact hk.run (hk.modeImp) hk.dey hp
  | aslAcc => exact hk.run (hk.modeAcc) hk.asl hp
  | aslZp _ => exact hk.run (hk.modeZp _) hk.asl hp
  | aslZpX _ => exact hk.run (hk.modeZpX _) hk.asl hp
  | aslAbs _ => exact hk.run (hk.modeAbs _) hk.asl hp
  | aslAbsX _ => exact hk.run (hk.modeAbsX _) hk.asl hp
  | lsrAcc => exact hk.run (hk.modeAcc) hk.lsr hp
  | lsrZp _ => exact hk.run (hk.modeZp _) hk.lsr hp
  | lsrZpX _ => exact hk.run (hk.modeZpX _) hk.lsr hp
  | lsrAbs _ => exact hk.run (hk.modeAbs _) hk.lsr hp
  | lsrAbsX _ => exact hk.run (hk.modeAbsX _) hk.lsr hp
  | rolAcc => exact hk.run (hk.modeAcc) hk.rol hp
  | rolZp _ => exact hk.run (hk.modeZp _) hk.rol hp
  | rolZpX _ => exact hk.run (hk.modeZpX _) hk.rol hp
  | rolAbs _ => exact hk.run (hk.modeAbs _) hk.rol hp
  | rolAbsX _ => exact hk.run (hk.modeAbsX _) hk.rol hp
  | rorAcc => exact hk.run (hk.modeAcc) hk.ror hp
  | rorZp _ => exact hk.run (hk.modeZp _) hk.ror hp
  | rorZpX _ => exact hk.run (hk.modeZpX _) hk.ror hp
  | rorAbs _ => exact hk.run (hk.modeAbs _) hk.ror hp
  | rorAbsX _ => exact hk.run (hk.modeAbsX _) hk.ror hp
  | jmpAbs _ => exact hk.run (hk.modeAbs _) hk.jmp hp
  | jmpInd _ => exact hk.run (hk.modeInd _) hk.jmp hp
  | jsr _ => exact hk.run (hk.modeAbs _) hk.jsr hp
  | rts => exact hk.run (hk.modeImp) hk.rts hp
  | rti => exact hk.run (hk.modeImp) hk.rti hp
  | brk => exact hk.run (hk.modeImp) hk.brk hp
  | bcc _ => exact hk.run (hk.modeRel _) hk.bcc hp
  | bcs _ => exact hk.run (hk.modeRel _) hk.bcs hp
  | beq _ => exact hk.run (hk.modeRel _) hk.beq hp
  | bmi _ => exact hk.run (hk.modeRel _) hk.bmi hp
  | bne _ => exact hk.run (hk.modeRel _) hk.bne hp
  | bpl _ => exact hk.run (hk.modeRel _) hk.bpl hp
  | bvc _ => exact hk.run (hk.modeRel _) hk.bvc hp
  | bvs _ => exact hk.run (hk.modeRel _) hk.bvs hp
  | clc => exact hk.run (hk.modeImp) hk.clc hp
  | sec => exact hk.run (hk.modeImp) hk.sec hp
  | cli => exact hk.run (hk.modeImp) hk.cli hp
  | sei => exact hk.run (hk.modeImp) hk.sei hp
  | cld => exact hk.run (hk.modeImp) hk.cld hp
  | sed => exact hk.run (hk.modeImp) hk.sed hp
  | clv => exact hk.run (hk.modeImp) hk.clv hp
  | nop => exact hk.run (hk.modeImp) hk.nop hp

/-- Fetching keeps P. -/
theorem fetch {s : State} (hp : P s) : Leaves P Prod.snd (fetchInstr s) := by
  refine leaves_bind (hk.reads _ hp) fun r hp => ?_
  dsimp only
  split
  · exact hp
  · exact hp
  · exact leaves_bind (hk.reads _ hp) fun _ hp => hp
  · exact leaves_bind (hk.reads _ hp) fun _ hp => leaves_bind (hk.reads _ hp) fun _ hp => hp

/-- The operation of a step keeps P, if clearing the NMI latch does. -/
theorem service {s : State} (hl : ∀ {u : State}, P u → P (u.setNmiLatch false)) (hp : P s) :
    After P (serviceOrExecute s) := by
  simp only [serviceOrExecute]
  split
  · exact after_toOutcome (hk.entry _ (hl hp))
  · split
    · exact after_toOutcome (hk.entry _ hp)
    · have hf := hk.fetch hp
      simp only [executeNext]
      cases h : fetchInstr s with
      | ok r =>
        rw [h] at hf
        exact hk.exec r.1 hf
      | error e =>
        rw [h] at hf
        obtain ⟨kind, u⟩ := e
        exact ⟨u, hf, rfl⟩

/-- An instruction that completes keeps P. -/
theorem exec_next {i : Instr} {s t : State} (h : Machine.exec i s = .next t) (hp : P s) : P t := by
  have := hk.exec i hp
  rw [h] at this
  exact this

end Kept

/-- The invariant of the memories and counters is kept by reads, writes and register changes. -/
theorem kept_busInv : Kept State.busInv where
  core := fun _ _ _ _ _ _ _ h => h
  read := memRead_busInv
  write := memWrite_busInv
  oam := fun _ b hi h => oamWrite_busInv b h hi

/-- What no instruction changes: the bookkeeping of R36–R38, the IRQ level, the gate and the cartridge. -/
theorem kept_frame (s0 : State) : Kept fun s =>
    s.irqLine = s0.irqLine ∧ s.odd = s0.odd ∧ s.cycles = s0.cycles ∧ s.status = s0.status ∧ s.gate = s0.gate ∧
      s.cart = s0.cart where
  core := fun _ _ _ _ _ _ _ h => h
  read := by
    intro addr d s t h hp
    obtain ⟨_, _, _, _, _, _, rfl, -⟩ := memRead_frame h
    exact hp
  write := by
    intro addr d k s t h hp
    obtain ⟨h1, h2⟩ := memWrite_core_kept h
    rw [h2]
    rw [h1]
    exact hp
  oam := fun _ _ _ h => h

/-- No instruction moves the PPU's position: only the dots after it do (R168). -/
theorem kept_position (s0 : State) : Kept fun s => s.ppu.scanline = s0.ppu.scanline ∧ s.ppu.dot = s0.ppu.dot where
  core := fun _ _ _ _ _ _ _ h => h
  read := by
    intro addr d s t h hp
    obtain ⟨_, _, _, _, _, _, rfl, -⟩ := memRead_frame h
    exact hp
  write := by
    intro addr d k s t h hp
    obtain ⟨h1, h2⟩ := memWrite_position h
    exact ⟨h1.trans hp.1, h2.trans hp.2⟩
  oam := fun _ _ _ h => h

end Sys2Proof.Machine
end

