-- ==== Sys2Proof/Laws/Step.lean ====
section
/-! SUPPORT. What a step can do, said once (40_step.md R160, R169, R170; 60_exceptions.md R320, R355–R359): the gate's two
answers, the step of a core that goes, how a step completes and how it faults. -/

namespace Sys2Proof.Machine

/-! The end of a run -/

/-- The end of a run, field by field (R320, R357). -/
theorem enterFaulted_eq (kind : FaultKind) (s : State) :
    enterFaulted kind s = { s with
      status := .faulted kind,
      gate := { s.gate with
        published := if s.gate.mode = .debug then ⟨s.pc, some kind⟩ :: s.gate.published else s.gate.published } } := rfl

/-- The end of a run leaves the memories and counters alone. -/
theorem enterFaulted_busInv (kind : FaultKind) {s : State} (h : s.busInv) : (enterFaulted kind s).busInv := by
  rw [enterFaulted_eq]
  exact h

/-! The gate -/

/-- The gate publishes its BreakState once, and waits (R355). -/
theorem publish_eq (s : State) :
    publish s = { s.gate with
      waiting := true, published := if s.gate.waiting then s.gate.published else ⟨s.pc, none⟩ :: s.gate.published } := by
  simp only [publish]
  cases h : s.gate.waiting with
  | true => rw [if_pos rfl, if_pos rfl, ← h]
  | false => rw [if_neg (by simp), if_neg (by simp)]

/-- The gate changes the gate, and `status` where it stops the core; where it passes, the gate alone (R355). -/
theorem runGate_cases (s : State) :
    (∃ gate status, runGate s = .hold { s with gate := gate, status := status }) ∨
      ∃ gate, runGate s = .pass { s with gate := gate } := by
  simp only [runGate]
  split
  · split
    · exact .inl ⟨_, _, rfl⟩
    · split
      · exact .inl ⟨_, s.status, rfl⟩
      · exact .inr ⟨_, rfl⟩
      · exact .inr ⟨_, rfl⟩
      · exact .inl ⟨_, _, rfl⟩
  · exact .inr ⟨_, rfl⟩

/-! The step -/

/-- A core that goes passes its gate, and its step is the service of an interrupt or an instruction, completed (R169). -/
theorem step_goes {s : State} (h : s.goes = true) :
    step s = complete Config.vblankDot (serviceOrExecute s.passGate) := by
  simp only [State.goes, Bool.and_eq_true, beq_iff_eq, Bool.not_eq_true'] at h
  have hg : runGate s = .pass s.passGate := by
    simp only [runGate, h.2]
    rfl
  simp only [step, stepWith, h.1, hg]

/-- A step that answers a next state: the gate held the core, or an operation completed and the bookkeeping followed. -/
theorem step_next {s t : State} (h : step s = .next t) :
    s.status = .running ∧ ((∃ gate status, t = { s with gate := gate, status := status }) ∨
      ∃ gate u, serviceOrExecute { s with gate := gate } = .next u ∧ t = applyStop (finishStep Config.vblankDot u)) := by
  simp only [step, stepWith] at h
  split at h
  · cases h
  · cases h
  · rename_i hs
    refine ⟨hs, ?_⟩
    rcases runGate_cases s with ⟨gate, status, hg⟩ | ⟨gate, hg⟩
    · rw [hg] at h
      exact .inl ⟨gate, status, (Host.Outcome.next.inj h).symm⟩
    · rw [hg] at h
      simp only at h
      cases hu : serviceOrExecute { s with gate := gate } with
      | next u =>
        rw [hu] at h
        exact .inr ⟨gate, u, hu, (Host.Outcome.next.inj h).symm⟩
      | fault e => rw [hu] at h; cases h
      | refused r => rw [hu] at h; cases h

/-- A step that faults: the core was Faulted already and stays as it is, or the operation faulted and nothing followed. -/
theorem step_fault {s t : State} {kind : FaultKind} (h : step s = .fault (.raised kind t)) :
    (s.status = .faulted kind ∧ t = s) ∨
      (s.status = .running ∧ ∃ gate, serviceOrExecute { s with gate := gate } = .fault (.raised kind t)) := by
  simp only [step, stepWith] at h
  split at h
  · rename_i hs
    cases h
    exact .inl ⟨hs, rfl⟩
  · cases h
  · rename_i hs
    refine .inr ⟨hs, ?_⟩
    rcases runGate_cases s with ⟨gate, status, hg⟩ | ⟨gate, hg⟩
    · rw [hg] at h
      cases h
    · rw [hg] at h
      simp only at h
      cases hu : serviceOrExecute { s with gate := gate } with
      | next u => rw [hu] at h; cases h
      | fault e => rw [hu] at h; exact ⟨gate, hu.trans h⟩
      | refused r => rw [hu] at h; cases h

end Sys2Proof.Machine
end

