-- ==== Sys2Proof/Laws/Fetch.lean ====
section
/-! SUPPORT. What fetching an instruction can do (40_step.md R161, R162; 60_exceptions.md R323): the entry of the opcode table
that an instruction's bytes select, the instruction that a row of bus reads fetches, and the fault of the first read that has
one. -/

namespace Sys2Proof.Machine

/-- Each instruction's opcode byte selects its own entry of the opcode table, and its operand bytes complete it (R122, R124). -/
theorem opcodeTable_opcode (i : Instr) :
    (encode i = [i.opcode] ∧ opcodeTable i.opcode = some (.f1 i)) ∨
    (∃ b1 mk, encode i = [i.opcode, b1] ∧ opcodeTable i.opcode = some (.f2 mk) ∧ mk b1 = i) ∨
    ∃ b1 b2 mk, encode i = [i.opcode, b1, b2] ∧ opcodeTable i.opcode = some (.f3 mk) ∧ mk (mkWord b1 b2) = i := by
  cases i <;> simp only [encode, Instr.opcode, Instr.operandBytes] <;> first
    | exact .inl ⟨trivial, by rfl⟩
    | exact .inr (.inl ⟨_, _, rfl, by rfl, rfl⟩)
    | exact .inr (.inr ⟨_, _, _, rfl, by rfl, by simp only [mkWord_lowByte_highByte]⟩)

/-- A read that `readFault` names a fault for answers that fault, with nothing changed. -/
theorem memRead_of_readFault {addr : Word} {s : State} {kind : FaultKind} (h : readFault s addr = some kind) :
    memRead addr s = .error (.raised kind s) := by
  have hm := memRead_fault addr s
  rwa [h] at hm

/-- Bus reads neither read nor write the core's own registers. -/
theorem busReads_withCore {addr : Word} {bytes : List Byte} {s t : State} (h : BusReads addr bytes s t) (u : State) :
    BusReads addr bytes (s.withCore u) (t.withCore u) := by
  induction bytes generalizing addr s with
  | nil => exact congrArg (·.withCore u) h
  | cons b rest ih =>
    obtain ⟨s1, hr, hrest⟩ := h
    exact ⟨s1.withCore u, memRead_core hr u, ih hrest⟩

/-- Bus reads leave the core's own registers alone. -/
theorem busReads_core_kept {addr : Word} {bytes : List Byte} {s t : State} (h : BusReads addr bytes s t) : t = t.withCore s := by
  induction bytes generalizing addr s with
  | nil => rw [show t = s from h, withCore_self]
  | cons b rest ih =>
    obtain ⟨s1, hr, hrest⟩ := h
    have h1 := congrArg (State.withCore t) (memRead_core_kept hr).1
    exact (ih hrest).trans h1

/-- Bus reads before and after a gate that did not break are the same. -/
theorem busReads_passGate {addr : Word} {bytes : List Byte} {s t : State} (h : BusReads addr bytes s t) :
    BusReads addr bytes s.passGate t.passGate := by
  have hw := busReads_withCore h s.passGate
  rwa [show s.withCore s.passGate = s.passGate from rfl,
    show t.withCore s.passGate = t.passGate by rw [busReads_core_kept h]; rfl] at hw

/-- Bus reads that answer the bytes of an instruction fetch it (R161, R162). -/
theorem fetchInstr_reads {i : Instr} {s t : State} (h : BusReads s.pc (encode i) s t) : fetchInstr s = .ok (i, t) := by
  rcases opcodeTable_opcode i with ⟨he, ht⟩ | ⟨b1, mk, he, ht, hi⟩ | ⟨b1, b2, mk, he, ht, hi⟩ <;> rw [he] at h
  · obtain ⟨s1, h1, rfl⟩ := h
    simp only [fetchInstr, h1, ok_bind, ht]
  · obtain ⟨s1, h1, s2, h2, rfl⟩ := h
    simp only [fetchInstr, h1, ok_bind, ht, h2, hi]
  · obtain ⟨s1, h1, s2, h2, s3, h3, rfl⟩ := h
    rw [BitVec.add_assoc] at h3
    simp only [fetchInstr, h1, ok_bind, ht, h2, hi, show memRead (s.pc + 2) s2 = _ from h3]

/-- A fetch faults with the first of its reads that does, in the state the reads before it leave (R323). -/
theorem fetchInstr_readFault {i : Instr} {k : Nat} {s t : State} {kind : FaultKind} (hk : k < (encode i).length)
    (h : BusReads s.pc ((encode i).take k) s t) (hf : readFault t (s.pc + BitVec.ofNat 16 k) = some kind) :
    fetchInstr s = .error (.raised kind t) := by
  have hr := memRead_of_readFault hf
  rcases k with _ | k
  · obtain rfl := h
    rw [show t.pc + BitVec.ofNat 16 0 = t.pc from BitVec.add_zero _] at hr
    simp only [fetchInstr, hr, error_bind]
  rcases opcodeTable_opcode i with ⟨he, ht⟩ | ⟨b1, mk, he, ht, -⟩ | ⟨b1, b2, mk, he, ht, -⟩ <;> rw [he] at h hk
  · simp at hk
  · obtain rfl : k = 0 := by simpa using hk
    obtain ⟨s1, h1, rfl⟩ := h
    simp only [fetchInstr, h1, ok_bind, ht, show memRead (s.pc + 1) _ = _ from hr, error_bind]
  · rcases k with _ | _ | k
    · obtain ⟨s1, h1, rfl⟩ := h
      simp only [fetchInstr, h1, ok_bind, ht, show memRead (s.pc + 1) _ = _ from hr, error_bind]
    · obtain ⟨s1, h1, s2, h2, rfl⟩ := h
      simp only [fetchInstr, h1, ok_bind, ht, h2, show memRead (s.pc + 2) _ = _ from hr, error_bind]
    · simp only [List.length_cons, List.length_nil] at hk
      omega

end Sys2Proof.Machine
end

