-- ==== Sys2Proof/Laws/Load.lean ====
section
/-! SUPPORT. What a load answers (70_reset_and_hazards.md R370–R376), and that the state after reset is a load. -/

namespace Sys2Proof.Machine

/-- A load of an accepted cartridge never faults: PC is the word at $FFFC, read through the reset-state mapper (R370). -/
theorem load_eq {p : LoadParams} {c : Cart} (h : p.image.toCart = .ok c) :
    load p = .next ((loadState p c).setPc (prgWord resetVector (loadState p c))) := by
  simp only [load, h, jumpThrough_reset, toOutcome]

/-- `State.reset` is the load of the blank cartridge with the values the log names. -/
theorem load_default : load defaultParams = .next State.reset := by
  rw [load_eq (c := Cart.blank) (by decide)]
  rfl

/-- What an accepted image accepted. -/
theorem toCart_wellFormed {im : CartImage} {c : Cart} (h : im.toCart = .ok c) : c.wellFormed = true := by
  simp only [CartImage.toCart] at h
  split at h
  · exact absurd h (by simp)
  · split_ifs at h
    split at h
    · exact absurd h (by simp)
    · rename_i hr
      obtain rfl := Except.ok.inj h
      simp only [Cart.wellFormed, hr, Option.isNone_none]

end Sys2Proof.Machine
end

