-- ==== Sys2Proof/Laws/PerInstr.lean ====
section
/-! SUPPORT. Facts about every instruction as syntax, one lemma per constructor. -/

namespace Sys2Proof.Laws.EncodedLength

/-- The opcode byte of an instruction has an entry in the opcode table, and the bytes of the instruction are one more than
the operand length of that entry (30_encoding.md R120, R121, R124). -/
def Statement (i : Instr) : Prop :=
  (opcodeTable i.opcode).map Entry.operandLength = some i.operandBytes.length ∧
    (encode i).length = 1 + i.operandBytes.length

theorem ldaImm (v : Byte) : Statement (.ldaImm v) :=
  ⟨congrArg (Option.map Entry.operandLength) opcodeTable_A9, rfl⟩
theorem ldaZp (zp : Byte) : Statement (.ldaZp zp) :=
  ⟨congrArg (Option.map Entry.operandLength) opcodeTable_A5, rfl⟩
theorem ldaZpX (zp : Byte) : Statement (.ldaZpX zp) :=
  ⟨congrArg (Option.map Entry.operandLength) opcodeTable_B5, rfl⟩
theorem ldaAbs (addr : Word) : Statement (.ldaAbs addr) :=
  ⟨congrArg (Option.map Entry.operandLength) opcodeTable_AD, rfl⟩
theorem ldaAbsX (addr : Word) : Statement (.ldaAbsX addr) :=
  ⟨congrArg (Option.map Entry.operandLength) opcodeTable_BD, rfl⟩
theorem ldaAbsY (addr : Word) : Statement (.ldaAbsY addr) :=
  ⟨congrArg (Option.map Entry.operandLength) opcodeTable_B9, rfl⟩
theorem ldaIndX (zp : Byte) : Statement (.ldaIndX zp) :=
  ⟨congrArg (Option.map Entry.operandLength) opcodeTable_A1, rfl⟩
theorem ldaIndY (zp : Byte) : Statement (.ldaIndY zp) :=
  ⟨congrArg (Option.map Entry.operandLength) opcodeTable_B1, rfl⟩
theorem ldxImm (v : Byte) : Statement (.ldxImm v) :=
  ⟨congrArg (Option.map Entry.operandLength) opcodeTable_A2, rfl⟩
theorem ldxZp (zp : Byte) : Statement (.ldxZp zp) :=
  ⟨congrArg (Option.map Entry.operandLength) opcodeTable_A6, rfl⟩
theorem ldxZpY (zp : Byte) : Statement (.ldxZpY zp) :=
  ⟨congrArg (Option.map Entry.operandLength) opcodeTable_B6, rfl⟩
theorem ldxAbs (addr : Word) : Statement (.ldxAbs addr) :=
  ⟨congrArg (Option.map Entry.operandLength) opcodeTable_AE, rfl⟩
theorem ldxAbsY (addr : Word) : Statement (.ldxAbsY addr) :=
  ⟨congrArg (Option.map Entry.operandLength) opcodeTable_BE, rfl⟩
theorem ldyImm (v : Byte) : Statement (.ldyImm v) :=
  ⟨congrArg (Option.map Entry.operandLength) opcodeTable_A0, rfl⟩
theorem ldyZp (zp : Byte) : Statement (.ldyZp zp) :=
  ⟨congrArg (Option.map Entry.operandLength) opcodeTable_A4, rfl⟩
theorem ldyZpX (zp : Byte) : Statement (.ldyZpX zp) :=
  ⟨congrArg (Option.map Entry.operandLength) opcodeTable_B4, rfl⟩
theorem ldyAbs (addr : Word) : Statement (.ldyAbs addr) :=
  ⟨congrArg (Option.map Entry.operandLength) opcodeTable_AC, rfl⟩
theorem ldyAbsX (addr : Word) : Statement (.ldyAbsX addr) :=
  ⟨congrArg (Option.map Entry.operandLength) opcodeTable_BC, rfl⟩
theorem staZp (zp : Byte) : Statement (.staZp zp) :=
  ⟨congrArg (Option.map Entry.operandLength) opcodeTable_85, rfl⟩
theorem staZpX (zp : Byte) : Statement (.staZpX zp) :=
  ⟨congrArg (Option.map Entry.operandLength) opcodeTable_95, rfl⟩
theorem staAbs (addr : Word) : Statement (.staAbs addr) :=
  ⟨congrArg (Option.map Entry.operandLength) opcodeTable_8D, rfl⟩
theorem staAbsX (addr : Word) : Statement (.staAbsX addr) :=
  ⟨congrArg (Option.map Entry.operandLength) opcodeTable_9D, rfl⟩
theorem staAbsY (addr : Word) : Statement (.staAbsY addr) :=
  ⟨congrArg (Option.map Entry.operandLength) opcodeTable_99, rfl⟩
theorem staIndX (zp : Byte) : Statement (.staIndX zp) :=
  ⟨congrArg (Option.map Entry.operandLength) opcodeTable_81, rfl⟩
theorem staIndY (zp : Byte) : Statement (.staIndY zp) :=
  ⟨congrArg (Option.map Entry.operandLength) opcodeTable_91, rfl⟩
theorem stxZp (zp : Byte) : Statement (.stxZp zp) :=
  ⟨congrArg (Option.map Entry.operandLength) opcodeTable_86, rfl⟩
theorem stxZpY (zp : Byte) : Statement (.stxZpY zp) :=
  ⟨congrArg (Option.map Entry.operandLength) opcodeTable_96, rfl⟩
theorem stxAbs (addr : Word) : Statement (.stxAbs addr) :=
  ⟨congrArg (Option.map Entry.operandLength) opcodeTable_8E, rfl⟩
theorem styZp (zp : Byte) : Statement (.styZp zp) :=
  ⟨congrArg (Option.map Entry.operandLength) opcodeTable_84, rfl⟩
theorem styZpX (zp : Byte) : Statement (.styZpX zp) :=
  ⟨congrArg (Option.map Entry.operandLength) opcodeTable_94, rfl⟩
theorem styAbs (addr : Word) : Statement (.styAbs addr) :=
  ⟨congrArg (Option.map Entry.operandLength) opcodeTable_8C, rfl⟩
theorem tax : Statement .tax :=
  ⟨congrArg (Option.map Entry.operandLength) opcodeTable_AA, rfl⟩
theorem tay : Statement .tay :=
  ⟨congrArg (Option.map Entry.operandLength) opcodeTable_A8, rfl⟩
theorem txa : Statement .txa :=
  ⟨congrArg (Option.map Entry.operandLength) opcodeTable_8A, rfl⟩
theorem tya : Statement .tya :=
  ⟨congrArg (Option.map Entry.operandLength) opcodeTable_98, rfl⟩
theorem tsx : Statement .tsx :=
  ⟨congrArg (Option.map Entry.operandLength) opcodeTable_BA, rfl⟩
theorem txs : Statement .txs :=
  ⟨congrArg (Option.map Entry.operandLength) opcodeTable_9A, rfl⟩
theorem pha : Statement .pha :=
  ⟨congrArg (Option.map Entry.operandLength) opcodeTable_48, rfl⟩
theorem php : Statement .php :=
  ⟨congrArg (Option.map Entry.operandLength) opcodeTable_08, rfl⟩
theorem pla : Statement .pla :=
  ⟨congrArg (Option.map Entry.operandLength) opcodeTable_68, rfl⟩
theorem plp : Statement .plp :=
  ⟨congrArg (Option.map Entry.operandLength) opcodeTable_28, rfl⟩
theorem adcImm (v : Byte) : Statement (.adcImm v) :=
  ⟨congrArg (Option.map Entry.operandLength) opcodeTable_69, rfl⟩
theorem adcZp (zp : Byte) : Statement (.adcZp zp) :=
  ⟨congrArg (Option.map Entry.operandLength) opcodeTable_65, rfl⟩
theorem adcZpX (zp : Byte) : Statement (.adcZpX zp) :=
  ⟨congrArg (Option.map Entry.operandLength) opcodeTable_75, rfl⟩
theorem adcAbs (addr : Word) : Statement (.adcAbs addr) :=
  ⟨congrArg (Option.map Entry.operandLength) opcodeTable_6D, rfl⟩
theorem adcAbsX (addr : Word) : Statement (.adcAbsX addr) :=
  ⟨congrArg (Option.map Entry.operandLength) opcodeTable_7D, rfl⟩
theorem adcAbsY (addr : Word) : Statement (.adcAbsY addr) :=
  ⟨congrArg (Option.map Entry.operandLength) opcodeTable_79, rfl⟩
theorem adcIndX (zp : Byte) : Statement (.adcIndX zp) :=
  ⟨congrArg (Option.map Entry.operandLength) opcodeTable_61, rfl⟩
theorem adcIndY (zp : Byte) : Statement (.adcIndY zp) :=
  ⟨congrArg (Option.map Entry.operandLength) opcodeTable_71, rfl⟩
theorem sbcImm (v : Byte) : Statement (.sbcImm v) :=
  ⟨congrArg (Option.map Entry.operandLength) opcodeTable_E9, rfl⟩
theorem sbcZp (zp : Byte) : Statement (.sbcZp zp) :=
  ⟨congrArg (Option.map Entry.operandLength) opcodeTable_E5, rfl⟩
theorem sbcZpX (zp : Byte) : Statement (.sbcZpX zp) :=
  ⟨congrArg (Option.map Entry.operandLength) opcodeTable_F5, rfl⟩
theorem sbcAbs (addr : Word) : Statement (.sbcAbs addr) :=
  ⟨congrArg (Option.map Entry.operandLength) opcodeTable_ED, rfl⟩
theorem sbcAbsX (addr : Word) : Statement (.sbcAbsX addr) :=
  ⟨congrArg (Option.map Entry.operandLength) opcodeTable_FD, rfl⟩
theorem sbcAbsY (addr : Word) : Statement (.sbcAbsY addr) :=
  ⟨congrArg (Option.map Entry.operandLength) opcodeTable_F9, rfl⟩
theorem sbcIndX (zp : Byte) : Statement (.sbcIndX zp) :=
  ⟨congrArg (Option.map Entry.operandLength) opcodeTable_E1, rfl⟩
theorem sbcIndY (zp : Byte) : Statement (.sbcIndY zp) :=
  ⟨congrArg (Option.map Entry.operandLength) opcodeTable_F1, rfl⟩
theorem andImm (v : Byte) : Statement (.andImm v) :=
  ⟨congrArg (Option.map Entry.operandLength) opcodeTable_29, rfl⟩
theorem andZp (zp : Byte) : Statement (.andZp zp) :=
  ⟨congrArg (Option.map Entry.operandLength) opcodeTable_25, rfl⟩
theorem andZpX (zp : Byte) : Statement (.andZpX zp) :=
  ⟨congrArg (Option.map Entry.operandLength) opcodeTable_35, rfl⟩
theorem andAbs (addr : Word) : Statement (.andAbs addr) :=
  ⟨congrArg (Option.map Entry.operandLength) opcodeTable_2D, rfl⟩
theorem andAbsX (addr : Word) : Statement (.andAbsX addr) :=
  ⟨congrArg (Option.map Entry.operandLength) opcodeTable_3D, rfl⟩
theorem andAbsY (addr : Word) : Statement (.andAbsY addr) :=
  ⟨congrArg (Option.map Entry.operandLength) opcodeTable_39, rfl⟩
theorem andIndX (zp : Byte) : Statement (.andIndX zp) :=
  ⟨congrArg (Option.map Entry.operandLength) opcodeTable_21, rfl⟩
theorem andIndY (zp : Byte) : Statement (.andIndY zp) :=
  ⟨congrArg (Option.map Entry.operandLength) opcodeTable_31, rfl⟩
theorem oraImm (v : Byte) : Statement (.oraImm v) :=
  ⟨congrArg (Option.map Entry.operandLength) opcodeTable_09, rfl⟩
theorem oraZp (zp : Byte) : Statement (.oraZp zp) :=
  ⟨congrArg (Option.map Entry.operandLength) opcodeTable_05, rfl⟩
theorem oraZpX (zp : Byte) : Statement (.oraZpX zp) :=
  ⟨congrArg (Option.map Entry.operandLength) opcodeTable_15, rfl⟩
theorem oraAbs (addr : Word) : Statement (.oraAbs addr) :=
  ⟨congrArg (Option.map Entry.operandLength) opcodeTable_0D, rfl⟩
theorem oraAbsX (addr : Word) : Statement (.oraAbsX addr) :=
  ⟨congrArg (Option.map Entry.operandLength) opcodeTable_1D, rfl⟩
theorem oraAbsY (addr : Word) : Statement (.oraAbsY addr) :=
  ⟨congrArg (Option.map Entry.operandLength) opcodeTable_19, rfl⟩
theorem oraIndX (zp : Byte) : Statement (.oraIndX zp) :=
  ⟨congrArg (Option.map Entry.operandLength) opcodeTable_01, rfl⟩
theorem oraIndY (zp : Byte) : Statement (.oraIndY zp) :=
  ⟨congrArg (Option.map Entry.operandLength) opcodeTable_11, rfl⟩
theorem eorImm (v : Byte) : Statement (.eorImm v) :=
  ⟨congrArg (Option.map Entry.operandLength) opcodeTable_49, rfl⟩
theorem eorZp (zp : Byte) : Statement (.eorZp zp) :=
  ⟨congrArg (Option.map Entry.operandLength) opcodeTable_45, rfl⟩
theorem eorZpX (zp : Byte) : Statement (.eorZpX zp) :=
  ⟨congrArg (Option.map Entry.operandLength) opcodeTable_55, rfl⟩
theorem eorAbs (addr : Word) : Statement (.eorAbs addr) :=
  ⟨congrArg (Option.map Entry.operandLength) opcodeTable_4D, rfl⟩
theorem eorAbsX (addr : Word) : Statement (.eorAbsX addr) :=
  ⟨congrArg (Option.map Entry.operandLength) opcodeTable_5D, rfl⟩
theorem eorAbsY (addr : Word) : Statement (.eorAbsY addr) :=
  ⟨congrArg (Option.map Entry.operandLength) opcodeTable_59, rfl⟩
theorem eorIndX (zp : Byte) : Statement (.eorIndX zp) :=
  ⟨congrArg (Option.map Entry.operandLength) opcodeTable_41, rfl⟩
theorem eorIndY (zp : Byte) : Statement (.eorIndY zp) :=
  ⟨congrArg (Option.map Entry.operandLength) opcodeTable_51, rfl⟩
theorem bitZp (zp : Byte) : Statement (.bitZp zp) :=
  ⟨congrArg (Option.map Entry.operandLength) opcodeTable_24, rfl⟩
theorem bitAbs (addr : Word) : Statement (.bitAbs addr) :=
  ⟨congrArg (Option.map Entry.operandLength) opcodeTable_2C, rfl⟩
theorem cmpImm (v : Byte) : Statement (.cmpImm v) :=
  ⟨congrArg (Option.map Entry.operandLength) opcodeTable_C9, rfl⟩
theorem cmpZp (zp : Byte) : Statement (.cmpZp zp) :=
  ⟨congrArg (Option.map Entry.operandLength) opcodeTable_C5, rfl⟩
theorem cmpZpX (zp : Byte) : Statement (.cmpZpX zp) :=
  ⟨congrArg (Option.map Entry.operandLength) opcodeTable_D5, rfl⟩
theorem cmpAbs (addr : Word) : Statement (.cmpAbs addr) :=
  ⟨congrArg (Option.map Entry.operandLength) opcodeTable_CD, rfl⟩
theorem cmpAbsX (addr : Word) : Statement (.cmpAbsX addr) :=
  ⟨congrArg (Option.map Entry.operandLength) opcodeTable_DD, rfl⟩
theorem cmpAbsY (addr : Word) : Statement (.cmpAbsY addr) :=
  ⟨congrArg (Option.map Entry.operandLength) opcodeTable_D9, rfl⟩
theorem cmpIndX (zp : Byte) : Statement (.cmpIndX zp) :=
  ⟨congrArg (Option.map Entry.operandLength) opcodeTable_C1, rfl⟩
theorem cmpIndY (zp : Byte) : Statement (.cmpIndY zp) :=
  ⟨congrArg (Option.map Entry.operandLength) opcodeTable_D1, rfl⟩
theorem cpxImm (v : Byte) : Statement (.cpxImm v) :=
  ⟨congrArg (Option.map Entry.operandLength) opcodeTable_E0, rfl⟩
theorem cpxZp (zp : Byte) : Statement (.cpxZp zp) :=
  ⟨congrArg (Option.map Entry.operandLength) opcodeTable_E4, rfl⟩
theorem cpxAbs (addr : Word) : Statement (.cpxAbs addr) :=
  ⟨congrArg (Option.map Entry.operandLength) opcodeTable_EC, rfl⟩
theorem cpyImm (v : Byte) : Statement (.cpyImm v) :=
  ⟨congrArg (Option.map Entry.operandLength) opcodeTable_C0, rfl⟩
theorem cpyZp (zp : Byte) : Statement (.cpyZp zp) :=
  ⟨congrArg (Option.map Entry.operandLength) opcodeTable_C4, rfl⟩
theorem cpyAbs (addr : Word) : Statement (.cpyAbs addr) :=
  ⟨congrArg (Option.map Entry.operandLength) opcodeTable_CC, rfl⟩
theorem incZp (zp : Byte) : Statement (.incZp zp) :=
  ⟨congrArg (Option.map Entry.operandLength) opcodeTable_E6, rfl⟩
theorem incZpX (zp : Byte) : Statement (.incZpX zp) :=
  ⟨congrArg (Option.map Entry.operandLength) opcodeTable_F6, rfl⟩
theorem incAbs (addr : Word) : Statement (.incAbs addr) :=
  ⟨congrArg (Option.map Entry.operandLength) opcodeTable_EE, rfl⟩
theorem incAbsX (addr : Word) : Statement (.incAbsX addr) :=
  ⟨congrArg (Option.map Entry.operandLength) opcodeTable_FE, rfl⟩
theorem decZp (zp : Byte) : Statement (.decZp zp) :=
  ⟨congrArg (Option.map Entry.operandLength) opcodeTable_C6, rfl⟩
theorem decZpX (zp : Byte) : Statement (.decZpX zp) :=
  ⟨congrArg (Option.map Entry.operandLength) opcodeTable_D6, rfl⟩
theorem decAbs (addr : Word) : Statement (.decAbs addr) :=
  ⟨congrArg (Option.map Entry.operandLength) opcodeTable_CE, rfl⟩
theorem decAbsX (addr : Word) : Statement (.decAbsX addr) :=
  ⟨congrArg (Option.map Entry.operandLength) opcodeTable_DE, rfl⟩
theorem inx : Statement .inx :=
  ⟨congrArg (Option.map Entry.operandLength) opcodeTable_E8, rfl⟩
theorem iny : Statement .iny :=
  ⟨congrArg (Option.map Entry.operandLength) opcodeTable_C8, rfl⟩
theorem dex : Statement .dex :=
  ⟨congrArg (Option.map Entry.operandLength) opcodeTable_CA, rfl⟩
theorem dey : Statement .dey :=
  ⟨congrArg (Option.map Entry.operandLength) opcodeTable_88, rfl⟩
theorem aslAcc : Statement .aslAcc :=
  ⟨congrArg (Option.map Entry.operandLength) opcodeTable_0A, rfl⟩
theorem aslZp (zp : Byte) : Statement (.aslZp zp) :=
  ⟨congrArg (Option.map Entry.operandLength) opcodeTable_06, rfl⟩
theorem aslZpX (zp : Byte) : Statement (.aslZpX zp) :=
  ⟨congrArg (Option.map Entry.operandLength) opcodeTable_16, rfl⟩
theorem aslAbs (addr : Word) : Statement (.aslAbs addr) :=
  ⟨congrArg (Option.map Entry.operandLength) opcodeTable_0E, rfl⟩
theorem aslAbsX (addr : Word) : Statement (.aslAbsX addr) :=
  ⟨congrArg (Option.map Entry.operandLength) opcodeTable_1E, rfl⟩
theorem lsrAcc : Statement .lsrAcc :=
  ⟨congrArg (Option.map Entry.operandLength) opcodeTable_4A, rfl⟩
theorem lsrZp (zp : Byte) : Statement (.lsrZp zp) :=
  ⟨congrArg (Option.map Entry.operandLength) opcodeTable_46, rfl⟩
theorem lsrZpX (zp : Byte) : Statement (.lsrZpX zp) :=
  ⟨congrArg (Option.map Entry.operandLength) opcodeTable_56, rfl⟩
theorem lsrAbs (addr : Word) : Statement (.lsrAbs addr) :=
  ⟨congrArg (Option.map Entry.operandLength) opcodeTable_4E, rfl⟩
theorem lsrAbsX (addr : Word) : Statement (.lsrAbsX addr) :=
  ⟨congrArg (Option.map Entry.operandLength) opcodeTable_5E, rfl⟩
theorem rolAcc : Statement .rolAcc :=
  ⟨congrArg (Option.map Entry.operandLength) opcodeTable_2A, rfl⟩
theorem rolZp (zp : Byte) : Statement (.rolZp zp) :=
  ⟨congrArg (Option.map Entry.operandLength) opcodeTable_26, rfl⟩
theorem rolZpX (zp : Byte) : Statement (.rolZpX zp) :=
  ⟨congrArg (Option.map Entry.operandLength) opcodeTable_36, rfl⟩
theorem rolAbs (addr : Word) : Statement (.rolAbs addr) :=
  ⟨congrArg (Option.map Entry.operandLength) opcodeTable_2E, rfl⟩
theorem rolAbsX (addr : Word) : Statement (.rolAbsX addr) :=
  ⟨congrArg (Option.map Entry.operandLength) opcodeTable_3E, rfl⟩
theorem rorAcc : Statement .rorAcc :=
  ⟨congrArg (Option.map Entry.operandLength) opcodeTable_6A, rfl⟩
theorem rorZp (zp : Byte) : Statement (.rorZp zp) :=
  ⟨congrArg (Option.map Entry.operandLength) opcodeTable_66, rfl⟩
theorem rorZpX (zp : Byte) : Statement (.rorZpX zp) :=
  ⟨congrArg (Option.map Entry.operandLength) opcodeTable_76, rfl⟩
theorem rorAbs (addr : Word) : Statement (.rorAbs addr) :=
  ⟨congrArg (Option.map Entry.operandLength) opcodeTable_6E, rfl⟩
theorem rorAbsX (addr : Word) : Statement (.rorAbsX addr) :=
  ⟨congrArg (Option.map Entry.operandLength) opcodeTable_7E, rfl⟩
theorem jmpAbs (addr : Word) : Statement (.jmpAbs addr) :=
  ⟨congrArg (Option.map Entry.operandLength) opcodeTable_4C, rfl⟩
theorem jmpInd (addr : Word) : Statement (.jmpInd addr) :=
  ⟨congrArg (Option.map Entry.operandLength) opcodeTable_6C, rfl⟩
theorem jsr (addr : Word) : Statement (.jsr addr) :=
  ⟨congrArg (Option.map Entry.operandLength) opcodeTable_20, rfl⟩
theorem rts : Statement .rts :=
  ⟨congrArg (Option.map Entry.operandLength) opcodeTable_60, rfl⟩
theorem rti : Statement .rti :=
  ⟨congrArg (Option.map Entry.operandLength) opcodeTable_40, rfl⟩
theorem brk : Statement .brk :=
  ⟨congrArg (Option.map Entry.operandLength) opcodeTable_00, rfl⟩
theorem bcc (off : Byte) : Statement (.bcc off) :=
  ⟨congrArg (Option.map Entry.operandLength) opcodeTable_90, rfl⟩
theorem bcs (off : Byte) : Statement (.bcs off) :=
  ⟨congrArg (Option.map Entry.operandLength) opcodeTable_B0, rfl⟩
theorem beq (off : Byte) : Statement (.beq off) :=
  ⟨congrArg (Option.map Entry.operandLength) opcodeTable_F0, rfl⟩
theorem bmi (off : Byte) : Statement (.bmi off) :=
  ⟨congrArg (Option.map Entry.operandLength) opcodeTable_30, rfl⟩
theorem bne (off : Byte) : Statement (.bne off) :=
  ⟨congrArg (Option.map Entry.operandLength) opcodeTable_D0, rfl⟩
theorem bpl (off : Byte) : Statement (.bpl off) :=
  ⟨congrArg (Option.map Entry.operandLength) opcodeTable_10, rfl⟩
theorem bvc (off : Byte) : Statement (.bvc off) :=
  ⟨congrArg (Option.map Entry.operandLength) opcodeTable_50, rfl⟩
theorem bvs (off : Byte) : Statement (.bvs off) :=
  ⟨congrArg (Option.map Entry.operandLength) opcodeTable_70, rfl⟩
theorem clc : Statement .clc :=
  ⟨congrArg (Option.map Entry.operandLength) opcodeTable_18, rfl⟩
theorem sec : Statement .sec :=
  ⟨congrArg (Option.map Entry.operandLength) opcodeTable_38, rfl⟩
theorem cli : Statement .cli :=
  ⟨congrArg (Option.map Entry.operandLength) opcodeTable_58, rfl⟩
theorem sei : Statement .sei :=
  ⟨congrArg (Option.map Entry.operandLength) opcodeTable_78, rfl⟩
theorem cld : Statement .cld :=
  ⟨congrArg (Option.map Entry.operandLength) opcodeTable_D8, rfl⟩
theorem sed : Statement .sed :=
  ⟨congrArg (Option.map Entry.operandLength) opcodeTable_F8, rfl⟩
theorem clv : Statement .clv :=
  ⟨congrArg (Option.map Entry.operandLength) opcodeTable_B8, rfl⟩
theorem nop : Statement .nop :=
  ⟨congrArg (Option.map Entry.operandLength) opcodeTable_EA, rfl⟩

end Sys2Proof.Laws.EncodedLength
end

