-- ==== Sys2Proof/Tests/Slice0.lean ====
section
/-! SUPPORT. Tests: the decoding of every row of the opcode table, single steps, what WellFormed refuses, and for every
obligation with hypotheses a concrete case that meets them. -/

set_option Elab.async false

namespace Sys2Proof.Tests

open Sys2Proof Sys2Proof.Machine

/-! Every constructor decodes from its word: the opcode byte as the table writes it, then the operand bytes, low byte first
(30_encoding.md R120, R122, R124). -/

/-- Words with their instructions. -/
abbrev Words := List (List Byte × Instr)

theorem test_decode_BRK : ∀ p ∈ ([([0x00], .brk)] : Words), decode p.1 = .ok (p.2, []) := by decide

theorem test_decode_ORA : ∀ p ∈ ([([0x01, 0x12], .oraIndX 0x12), ([0x05, 0x12], .oraZp 0x12), ([0x09, 0x12], .oraImm 0x12),
      ([0x0D, 0x34, 0x12], .oraAbs 0x1234), ([0x11, 0x12], .oraIndY 0x12), ([0x15, 0x12], .oraZpX 0x12),
      ([0x19, 0x34, 0x12], .oraAbsY 0x1234),
      ([0x1D, 0x34, 0x12], .oraAbsX 0x1234)] : Words), decode p.1 = .ok (p.2, []) := by decide

theorem test_decode_ASL : ∀ p ∈ ([([0x06, 0x12], .aslZp 0x12), ([0x0A], .aslAcc), ([0x0E, 0x34, 0x12], .aslAbs 0x1234), ([0x16, 0x12], .aslZpX 0x12),
      ([0x1E, 0x34, 0x12], .aslAbsX 0x1234)] : Words), decode p.1 = .ok (p.2, []) := by decide

theorem test_decode_PHP : ∀ p ∈ ([([0x08], .php)] : Words), decode p.1 = .ok (p.2, []) := by decide

theorem test_decode_BPL : ∀ p ∈ ([([0x10, 0x12], .bpl 0x12)] : Words), decode p.1 = .ok (p.2, []) := by decide

theorem test_decode_CLC : ∀ p ∈ ([([0x18], .clc)] : Words), decode p.1 = .ok (p.2, []) := by decide

theorem test_decode_JSR : ∀ p ∈ ([([0x20, 0x34, 0x12], .jsr 0x1234)] : Words), decode p.1 = .ok (p.2, []) := by decide

theorem test_decode_AND : ∀ p ∈ ([([0x21, 0x12], .andIndX 0x12), ([0x25, 0x12], .andZp 0x12), ([0x29, 0x12], .andImm 0x12),
      ([0x2D, 0x34, 0x12], .andAbs 0x1234), ([0x31, 0x12], .andIndY 0x12), ([0x35, 0x12], .andZpX 0x12),
      ([0x39, 0x34, 0x12], .andAbsY 0x1234),
      ([0x3D, 0x34, 0x12], .andAbsX 0x1234)] : Words), decode p.1 = .ok (p.2, []) := by decide

theorem test_decode_BIT : ∀ p ∈ ([([0x24, 0x12], .bitZp 0x12), ([0x2C, 0x34, 0x12], .bitAbs 0x1234)] : Words), decode p.1 = .ok (p.2, []) := by decide

theorem test_decode_ROL : ∀ p ∈ ([([0x26, 0x12], .rolZp 0x12), ([0x2A], .rolAcc), ([0x2E, 0x34, 0x12], .rolAbs 0x1234), ([0x36, 0x12], .rolZpX 0x12),
      ([0x3E, 0x34, 0x12], .rolAbsX 0x1234)] : Words), decode p.1 = .ok (p.2, []) := by decide

theorem test_decode_PLP : ∀ p ∈ ([([0x28], .plp)] : Words), decode p.1 = .ok (p.2, []) := by decide

theorem test_decode_BMI : ∀ p ∈ ([([0x30, 0x12], .bmi 0x12)] : Words), decode p.1 = .ok (p.2, []) := by decide

theorem test_decode_SEC : ∀ p ∈ ([([0x38], .sec)] : Words), decode p.1 = .ok (p.2, []) := by decide

theorem test_decode_RTI : ∀ p ∈ ([([0x40], .rti)] : Words), decode p.1 = .ok (p.2, []) := by decide

theorem test_decode_EOR : ∀ p ∈ ([([0x41, 0x12], .eorIndX 0x12), ([0x45, 0x12], .eorZp 0x12), ([0x49, 0x12], .eorImm 0x12),
      ([0x4D, 0x34, 0x12], .eorAbs 0x1234), ([0x51, 0x12], .eorIndY 0x12), ([0x55, 0x12], .eorZpX 0x12),
      ([0x59, 0x34, 0x12], .eorAbsY 0x1234),
      ([0x5D, 0x34, 0x12], .eorAbsX 0x1234)] : Words), decode p.1 = .ok (p.2, []) := by decide

theorem test_decode_LSR : ∀ p ∈ ([([0x46, 0x12], .lsrZp 0x12), ([0x4A], .lsrAcc), ([0x4E, 0x34, 0x12], .lsrAbs 0x1234), ([0x56, 0x12], .lsrZpX 0x12),
      ([0x5E, 0x34, 0x12], .lsrAbsX 0x1234)] : Words), decode p.1 = .ok (p.2, []) := by decide

theorem test_decode_PHA : ∀ p ∈ ([([0x48], .pha)] : Words), decode p.1 = .ok (p.2, []) := by decide

theorem test_decode_JMP : ∀ p ∈ ([([0x4C, 0x34, 0x12], .jmpAbs 0x1234),
      ([0x6C, 0x34, 0x12], .jmpInd 0x1234)] : Words), decode p.1 = .ok (p.2, []) := by decide

theorem test_decode_BVC : ∀ p ∈ ([([0x50, 0x12], .bvc 0x12)] : Words), decode p.1 = .ok (p.2, []) := by decide

theorem test_decode_CLI : ∀ p ∈ ([([0x58], .cli)] : Words), decode p.1 = .ok (p.2, []) := by decide

theorem test_decode_RTS : ∀ p ∈ ([([0x60], .rts)] : Words), decode p.1 = .ok (p.2, []) := by decide

theorem test_decode_ADC : ∀ p ∈ ([([0x61, 0x12], .adcIndX 0x12), ([0x65, 0x12], .adcZp 0x12), ([0x69, 0x12], .adcImm 0x12),
      ([0x6D, 0x34, 0x12], .adcAbs 0x1234), ([0x71, 0x12], .adcIndY 0x12), ([0x75, 0x12], .adcZpX 0x12),
      ([0x79, 0x34, 0x12], .adcAbsY 0x1234),
      ([0x7D, 0x34, 0x12], .adcAbsX 0x1234)] : Words), decode p.1 = .ok (p.2, []) := by decide

theorem test_decode_ROR : ∀ p ∈ ([([0x66, 0x12], .rorZp 0x12), ([0x6A], .rorAcc), ([0x6E, 0x34, 0x12], .rorAbs 0x1234), ([0x76, 0x12], .rorZpX 0x12),
      ([0x7E, 0x34, 0x12], .rorAbsX 0x1234)] : Words), decode p.1 = .ok (p.2, []) := by decide

theorem test_decode_PLA : ∀ p ∈ ([([0x68], .pla)] : Words), decode p.1 = .ok (p.2, []) := by decide

theorem test_decode_BVS : ∀ p ∈ ([([0x70, 0x12], .bvs 0x12)] : Words), decode p.1 = .ok (p.2, []) := by decide

theorem test_decode_SEI : ∀ p ∈ ([([0x78], .sei)] : Words), decode p.1 = .ok (p.2, []) := by decide

theorem test_decode_STA : ∀ p ∈ ([([0x81, 0x12], .staIndX 0x12), ([0x85, 0x12], .staZp 0x12), ([0x8D, 0x34, 0x12], .staAbs 0x1234),
      ([0x91, 0x12], .staIndY 0x12), ([0x95, 0x12], .staZpX 0x12), ([0x99, 0x34, 0x12], .staAbsY 0x1234),
      ([0x9D, 0x34, 0x12], .staAbsX 0x1234)] : Words), decode p.1 = .ok (p.2, []) := by decide

theorem test_decode_STY : ∀ p ∈ ([([0x84, 0x12], .styZp 0x12), ([0x8C, 0x34, 0x12], .styAbs 0x1234),
      ([0x94, 0x12], .styZpX 0x12)] : Words), decode p.1 = .ok (p.2, []) := by decide

theorem test_decode_STX : ∀ p ∈ ([([0x86, 0x12], .stxZp 0x12), ([0x8E, 0x34, 0x12], .stxAbs 0x1234),
      ([0x96, 0x12], .stxZpY 0x12)] : Words), decode p.1 = .ok (p.2, []) := by decide

theorem test_decode_DEY : ∀ p ∈ ([([0x88], .dey)] : Words), decode p.1 = .ok (p.2, []) := by decide

theorem test_decode_TXA : ∀ p ∈ ([([0x8A], .txa)] : Words), decode p.1 = .ok (p.2, []) := by decide

theorem test_decode_BCC : ∀ p ∈ ([([0x90, 0x12], .bcc 0x12)] : Words), decode p.1 = .ok (p.2, []) := by decide

theorem test_decode_TYA : ∀ p ∈ ([([0x98], .tya)] : Words), decode p.1 = .ok (p.2, []) := by decide

theorem test_decode_TXS : ∀ p ∈ ([([0x9A], .txs)] : Words), decode p.1 = .ok (p.2, []) := by decide

theorem test_decode_LDY : ∀ p ∈ ([([0xA0, 0x12], .ldyImm 0x12), ([0xA4, 0x12], .ldyZp 0x12), ([0xAC, 0x34, 0x12], .ldyAbs 0x1234),
      ([0xB4, 0x12], .ldyZpX 0x12),
      ([0xBC, 0x34, 0x12], .ldyAbsX 0x1234)] : Words), decode p.1 = .ok (p.2, []) := by decide

theorem test_decode_LDA : ∀ p ∈ ([([0xA1, 0x12], .ldaIndX 0x12), ([0xA5, 0x12], .ldaZp 0x12), ([0xA9, 0x12], .ldaImm 0x12),
      ([0xAD, 0x34, 0x12], .ldaAbs 0x1234), ([0xB1, 0x12], .ldaIndY 0x12), ([0xB5, 0x12], .ldaZpX 0x12),
      ([0xB9, 0x34, 0x12], .ldaAbsY 0x1234),
      ([0xBD, 0x34, 0x12], .ldaAbsX 0x1234)] : Words), decode p.1 = .ok (p.2, []) := by decide

theorem test_decode_LDX : ∀ p ∈ ([([0xA2, 0x12], .ldxImm 0x12), ([0xA6, 0x12], .ldxZp 0x12), ([0xAE, 0x34, 0x12], .ldxAbs 0x1234),
      ([0xB6, 0x12], .ldxZpY 0x12),
      ([0xBE, 0x34, 0x12], .ldxAbsY 0x1234)] : Words), decode p.1 = .ok (p.2, []) := by decide

theorem test_decode_TAY : ∀ p ∈ ([([0xA8], .tay)] : Words), decode p.1 = .ok (p.2, []) := by decide

theorem test_decode_TAX : ∀ p ∈ ([([0xAA], .tax)] : Words), decode p.1 = .ok (p.2, []) := by decide

theorem test_decode_BCS : ∀ p ∈ ([([0xB0, 0x12], .bcs 0x12)] : Words), decode p.1 = .ok (p.2, []) := by decide

theorem test_decode_CLV : ∀ p ∈ ([([0xB8], .clv)] : Words), decode p.1 = .ok (p.2, []) := by decide

theorem test_decode_TSX : ∀ p ∈ ([([0xBA], .tsx)] : Words), decode p.1 = .ok (p.2, []) := by decide

theorem test_decode_CPY : ∀ p ∈ ([([0xC0, 0x12], .cpyImm 0x12), ([0xC4, 0x12], .cpyZp 0x12),
      ([0xCC, 0x34, 0x12], .cpyAbs 0x1234)] : Words), decode p.1 = .ok (p.2, []) := by decide

theorem test_decode_CMP : ∀ p ∈ ([([0xC1, 0x12], .cmpIndX 0x12), ([0xC5, 0x12], .cmpZp 0x12), ([0xC9, 0x12], .cmpImm 0x12),
      ([0xCD, 0x34, 0x12], .cmpAbs 0x1234), ([0xD1, 0x12], .cmpIndY 0x12), ([0xD5, 0x12], .cmpZpX 0x12),
      ([0xD9, 0x34, 0x12], .cmpAbsY 0x1234),
      ([0xDD, 0x34, 0x12], .cmpAbsX 0x1234)] : Words), decode p.1 = .ok (p.2, []) := by decide

theorem test_decode_DEC : ∀ p ∈ ([([0xC6, 0x12], .decZp 0x12), ([0xCE, 0x34, 0x12], .decAbs 0x1234), ([0xD6, 0x12], .decZpX 0x12),
      ([0xDE, 0x34, 0x12], .decAbsX 0x1234)] : Words), decode p.1 = .ok (p.2, []) := by decide

theorem test_decode_INY : ∀ p ∈ ([([0xC8], .iny)] : Words), decode p.1 = .ok (p.2, []) := by decide

theorem test_decode_DEX : ∀ p ∈ ([([0xCA], .dex)] : Words), decode p.1 = .ok (p.2, []) := by decide

theorem test_decode_BNE : ∀ p ∈ ([([0xD0, 0x12], .bne 0x12)] : Words), decode p.1 = .ok (p.2, []) := by decide

theorem test_decode_CLD : ∀ p ∈ ([([0xD8], .cld)] : Words), decode p.1 = .ok (p.2, []) := by decide

theorem test_decode_CPX : ∀ p ∈ ([([0xE0, 0x12], .cpxImm 0x12), ([0xE4, 0x12], .cpxZp 0x12),
      ([0xEC, 0x34, 0x12], .cpxAbs 0x1234)] : Words), decode p.1 = .ok (p.2, []) := by decide

theorem test_decode_SBC : ∀ p ∈ ([([0xE1, 0x12], .sbcIndX 0x12), ([0xE5, 0x12], .sbcZp 0x12), ([0xE9, 0x12], .sbcImm 0x12),
      ([0xED, 0x34, 0x12], .sbcAbs 0x1234), ([0xF1, 0x12], .sbcIndY 0x12), ([0xF5, 0x12], .sbcZpX 0x12),
      ([0xF9, 0x34, 0x12], .sbcAbsY 0x1234),
      ([0xFD, 0x34, 0x12], .sbcAbsX 0x1234)] : Words), decode p.1 = .ok (p.2, []) := by decide

theorem test_decode_INC : ∀ p ∈ ([([0xE6, 0x12], .incZp 0x12), ([0xEE, 0x34, 0x12], .incAbs 0x1234), ([0xF6, 0x12], .incZpX 0x12),
      ([0xFE, 0x34, 0x12], .incAbsX 0x1234)] : Words), decode p.1 = .ok (p.2, []) := by decide

theorem test_decode_INX : ∀ p ∈ ([([0xE8], .inx)] : Words), decode p.1 = .ok (p.2, []) := by decide

theorem test_decode_NOP : ∀ p ∈ ([([0xEA], .nop)] : Words), decode p.1 = .ok (p.2, []) := by decide

theorem test_decode_BEQ : ∀ p ∈ ([([0xF0, 0x12], .beq 0x12)] : Words), decode p.1 = .ok (p.2, []) := by decide

theorem test_decode_SED : ∀ p ∈ ([([0xF8], .sed)] : Words), decode p.1 = .ok (p.2, []) := by decide

/-! One step each, expected results from spec/95_test_vectors.md (V1–V9) and from the worked examples of the rules. A program
stands at $8000 unless a test says otherwise. Flags are looked at as `getP` packs them: N V 1 B D I Z C. -/

/-- Bytes stored from an address on. -/
abbrev poke (addr : Word) (bytes : List Byte) (s : State) : State := placeBytes addr bytes s

/-- An instruction's bytes at `pc`, and PC there. -/
abbrev prog (pc : Word) (bytes : List Byte) (s : State) : State := poke pc bytes (s.setPc pc)

/-- What is looked at of the next state of a step. -/
abbrev seen {α : Type} (f : State → α) (s : State) : Option α :=
  match step s with
  | .next t => some (f t)
  | _ => none

/-- What is looked at of the fault of a step and of the state it leaves. -/
abbrev left {α : Type} (f : FaultKind → State → α) (s : State) : Option α :=
  match step s with
  | .fault (.raised kind t) => some (f kind t)
  | _ => none

/-- The fault of a step. -/
abbrev faultOf (s : State) : Option FaultKind := left (fun kind _ => kind) s

/-- The reset state with the stack pointer and the status byte of a vector. -/
abbrev start (p : Byte) : State := { State.reset with sp := 0xFF, flags := setP p }

/-- A state with an MMC1 cartridge of 8 PRG pages. -/
abbrev mmc1State : State := { State.reset with cart := { Cart.blank with mapper := .mmc1, prgPages := 8 } }

/-! Loads (V1.2, V2, V3) -/

theorem test_lda_zpx_wraps :
    seen (fun t => (t.a, t.pc)) (prog 0x8000 [0xB5, 0xF0] (poke 0x000F [0x11] { start 0 with x := 0x1F })) =
      some (0x11, 0x8002) := by decide +kernel

theorem test_lda_indx_wraps :
    seen (fun t => (t.a, t.stepCycles))
      (prog 0x8000 [0xA1, 0xFE] (poke 0x0234 [0x5A] (poke 0x00FF [0x34] (poke 0x0000 [0x02] { start 0 with x := 1 })))) =
      some (0x5A, 6) := by decide +kernel

theorem test_lda_indy_crosses :
    seen (fun t => (t.a, t.stepCycles))
      (prog 0x8000 [0xB1, 0x40] (poke 0x0310 [0x99] (poke 0x0040 [0xF0, 0x02] { start 0 with y := 0x20 }))) =
      some (0x99, 6) := by decide +kernel

theorem test_lda_absx_wraps :
    seen (fun t => (t.a, t.stepCycles)) (prog 0x8000 [0xBD, 0xFF, 0xFF] (poke 0x0001 [0x42] { start 0 with x := 2 })) =
      some (0x42, 5) := by decide +kernel

theorem test_lda_imm_zero :
    seen (fun t => (t.a, getP t.flags, t.stepCycles)) (prog 0x8000 [0xA9, 0x00] (start 0x80)) = some (0x00, 0x22, 2) := by
  decide +kernel

theorem test_lda_4015 :
    seen (fun t => (t.a, getP t.flags)) (prog 0x8000 [0xAD, 0x15, 0x40] { start 0 with a := 7 }) = some (0x00, 0x22) := by
  decide +kernel

theorem test_ldx_imm : seen (fun t => (t.x, getP t.flags)) (prog 0x8000 [0xA2, 0x80] (start 0)) = some (0x80, 0xA0) := by
  decide +kernel

theorem test_ldy_imm : seen (fun t => (t.y, getP t.flags)) (prog 0x8000 [0xA0, 0x00] (start 0)) = some (0x00, 0x22) := by
  decide +kernel

theorem test_lda_4018_faults : faultOf (prog 0x8000 [0xAD, 0x18, 0x40] (start 0)) = some (.unmappedAddress 0x4018) := by
  decide +kernel

theorem test_lda_4014_faults : faultOf (prog 0x8000 [0xAD, 0x14, 0x40] (start 0)) = some (.invalidMmioRead 0x4014) := by
  decide +kernel

theorem test_lda_ppudata_buffer :
    seen (fun t => (t.a, t.ppu.buf, t.ppu.v))
      (prog 0x8000 [0xAD, 0x07, 0x20]
        { start 0 with ppu := { State.reset.ppu with v := 0x2005, ciram := [(5, 0xAB)], buf := 0x11 } }) =
      some (0x11, 0xAB, 0x2006) := by decide +kernel

theorem test_lda_ppudata_palette :
    seen (fun t => (t.a, t.ppu.buf, t.ppu.v))
      (prog 0x8000 [0xAD, 0x07, 0x20]
        { start 0 with ppu := { State.reset.ppu with v := 0x3F00, pal := [(0, 0x0F)], ciram := [(0x700, 0x77)] } }) =
      some (0x0F, 0x77, 0x3F01) := by decide +kernel

/-! Stores (V1.1, V2, V3, V8; R204–R206) -/

theorem test_sta_absx_crosses :
    seen (fun t => (t.ram.read 0x310, t.stepCycles)) (prog 0x8000 [0x9D, 0xF0, 0x02] { start 0 with x := 0x20, a := 7 }) =
      some (7, 5) := by decide +kernel

theorem test_sta_ppudata :
    seen (fun t => (t.ppu.ciram.read 5, t.ppu.v))
      (prog 0x8000 [0x8D, 0x07, 0x20] { start 0 with a := 0xAB, ppu := { State.reset.ppu with v := 0x2005 } }) =
      some (0xAB, 0x2006) := by decide +kernel

/-- What is looked at of the next state of one instruction. -/
abbrev ran {α : Type} (f : State → α) (i : Instr) (s : State) : Option α :=
  match exec i s with
  | .next t => some (f t)
  | _ => none

theorem test_sta_dma_even :
    ran (fun t => (t.ppu.oam.read 0, t.ppu.oam.read 255, t.ppu.oamaddr, t.stepCycles)) (.staAbs 0x4014)
      (poke 0x03FF [0x56] (poke 0x0300 [0x12] { start 0 with a := 3 })) = some (0x12, 0x56, 0, 517) := by decide +kernel

theorem test_sta_indy_dma_odd :
    ran (fun t => t.stepCycles) (.staIndY 0x40)
      (poke 0x0040 [0x14, 0x40] { start 0 with a := 3, odd := true, cycles := 1 }) = some 520 := by decide +kernel

theorem test_sta_dma_page_20_faults :
    faultOf (prog 0x8000 [0x8D, 0x14, 0x40] { start 0 with a := 0x20 }) = some (.invalidMmioRead 0x2000) := by decide +kernel

theorem test_sta_2002_faults : faultOf (prog 0x8000 [0x8D, 0x02, 0x20] (start 0)) = some (.invalidMmioWrite 0x2002) := by
  decide +kernel

theorem test_sta_rom_faults : faultOf (prog 0x8000 [0x8D, 0x00, 0x80] (start 0)) = some (.unmappedAddress 0x8000) := by
  decide +kernel

theorem test_sta_2000_latches_nmi :
    seen (fun t => (t.ppu.ctrl, t.nmiLatch))
      (prog 0x8000 [0x8D, 0x00, 0x20] { start 0 with a := 0x80, ppu := { State.reset.ppu with vblank := true } }) =
      some (0x80, true) := by decide +kernel

theorem test_stx_zp : seen (fun t => t.ram.read 0x10) (prog 0x8000 [0x86, 0x10] { start 0 with x := 7 }) = some 7 := by
  decide +kernel

theorem test_sty_mirror : seen (fun t => t.ram.read 0x234) (prog 0x8000 [0x8C, 0x34, 0x12] { start 0 with y := 9 }) = some 9 := by
  decide +kernel

/-! Transfers and the stack (V3; R207–R216) -/

theorem test_tax : seen (fun t => (t.x, getP t.flags)) (prog 0x8000 [0xAA] { start 0 with a := 0x80 }) = some (0x80, 0xA0) := by
  decide +kernel

theorem test_tay : seen (fun t => (t.y, getP t.flags)) (prog 0x8000 [0xA8] { start 0 with y := 1 }) = some (0x00, 0x22) := by
  decide +kernel

theorem test_txa : seen (fun t => (t.a, getP t.flags)) (prog 0x8000 [0x8A] { start 0x82 with x := 1 }) = some (0x01, 0x20) := by
  decide +kernel

theorem test_tya : seen (fun t => (t.a, getP t.flags)) (prog 0x8000 [0x98] { start 0 with y := 0xFF }) = some (0xFF, 0xA0) := by
  decide +kernel

theorem test_tsx : seen (fun t => (t.x, getP t.flags)) (prog 0x8000 [0xBA] (start 0)) = some (0xFF, 0xA0) := by decide +kernel

theorem test_txs : seen (fun t => (t.sp, getP t.flags)) (prog 0x8000 [0x9A] (start 0)) = some (0x00, 0x20) := by decide +kernel

theorem test_pha_wraps :
    seen (fun t => (t.ram.read 0x100, t.sp)) (prog 0x8000 [0x48] { start 0 with sp := 0, a := 0x77 }) = some (0x77, 0xFF) := by
  decide +kernel

theorem test_php :
    seen (fun t => (t.ram.read 0x1FF, t.sp, t.stepCycles)) (prog 0x8000 [0x08] (start 0x81)) = some (0xB1, 0xFE, 3) := by
  decide +kernel

theorem test_pla_wraps :
    seen (fun t => (t.a, getP t.flags, t.sp)) (prog 0x8000 [0x68] (poke 0x0100 [0x80] (start 0))) = some (0x80, 0xA0, 0x00) := by
  decide +kernel

theorem test_plp :
    seen (fun t => (getP t.flags, t.flags.b, t.stepCycles)) (prog 0x8000 [0x28] (poke 0x01FF [0xFF] { start 0 with sp := 0xFE })) =
      some (0xFF, true, 4) := by decide +kernel

/-! Arithmetic and logic (V4): A, M, the carry in, and A and the status byte out. -/

/-- The vectors of one immediate opcode. -/
abbrev vectors (op : Byte) (l : List (Byte × Byte × Byte × Byte × Byte)) : Bool :=
  l.all fun (a, m, p, r, q) =>
    seen (fun t => (t.a, getP t.flags)) (prog 0x8000 [op, m] { start p with a := a }) == some (r, q)

theorem test_adc :
    vectors 0x69
      [(0x7F, 0x01, 0, 0x80, 0xE0), (0xFF, 0x01, 0, 0x00, 0x23), (0x80, 0x80, 0, 0x00, 0x63), (0xFF, 0xFF, 1, 0xFF, 0xA1),
        (0x50, 0x50, 0, 0xA0, 0xE0), (0x7F, 0x00, 1, 0x80, 0xE0), (0x50, 0xD0, 0, 0x20, 0x21), (0xD0, 0x90, 0, 0x60, 0x61),
        (0x09, 0x01, 8, 0x0A, 0x28)] := by decide +kernel

theorem test_adc_absx_cycles :
    seen (fun t => t.stepCycles) (prog 0x8000 [0x7D, 0x34, 0x12] { start 0 with x := 0x10 }) = some 4 ∧
      seen (fun t => t.stepCycles) (prog 0x8000 [0x7D, 0x34, 0x12] { start 0 with x := 0xD0 }) = some 5 := by decide +kernel

theorem test_sbc :
    vectors 0xE9
      [(0x00, 0x01, 1, 0xFF, 0xA0), (0x80, 0x01, 1, 0x7F, 0x61), (0x50, 0xF0, 1, 0x60, 0x20), (0x50, 0xB0, 1, 0xA0, 0xE0),
        (0x05, 0x05, 1, 0x00, 0x23), (0x05, 0x05, 0, 0xFF, 0xA0), (0x7F, 0xFF, 1, 0x80, 0xE0), (0xD0, 0x70, 1, 0x60, 0x61)] := by
  decide +kernel

theorem test_cmp :
    vectors 0xC9
      [(0x10, 0x10, 0x40, 0x10, 0x63), (0x10, 0x20, 0, 0x10, 0xA0), (0x20, 0x10, 0, 0x20, 0x21), (0x00, 0x80, 0, 0x00, 0xA0),
        (0xFF, 0x00, 0, 0xFF, 0xA1)] := by decide +kernel

theorem test_cpx : seen (fun t => getP t.flags) (prog 0x8000 [0xE0, 0x05] { start 0 with x := 5 }) = some 0x23 := by
  decide +kernel

theorem test_cpy : seen (fun t => getP t.flags) (prog 0x8000 [0xC0, 0x01] (start 0x03)) = some 0xA0 := by decide +kernel

theorem test_and : vectors 0x29 [(0xF0, 0x0F, 0, 0x00, 0x22)] := by decide +kernel

theorem test_ora : vectors 0x09 [(0x01, 0x80, 0, 0x81, 0xA0)] := by decide +kernel

theorem test_eor : vectors 0x49 [(0xFF, 0xFF, 0, 0x00, 0x22)] := by decide +kernel

theorem test_bit :
    seen (fun t => (t.a, getP t.flags)) (prog 0x8000 [0x24, 0x10] (poke 0x0010 [0xC0] { start 0 with a := 0x0F })) =
      some (0x0F, 0xE2) := by decide +kernel

theorem test_inc_zp_wraps :
    seen (fun t => (t.ram.read 0x10, getP t.flags, t.stepCycles)) (prog 0x8000 [0xE6, 0x10] (poke 0x0010 [0xFF] (start 0))) =
      some (0x00, 0x22, 5) := by decide +kernel

theorem test_inc_ppudata :
    seen (fun t => (t.ppu.buf, t.ppu.v, t.ppu.ciram.read 0, t.ppu.ciram.read 1))
      (prog 0x8000 [0xEE, 0x07, 0x20]
        { start 0 with ppu := { State.reset.ppu with v := 0x2000, buf := 0x11, ciram := [(0, 0x22), (1, 0x33)] } }) =
      some (0x22, 0x2002, 0x22, 0x12) := by decide +kernel

theorem test_inc_mmc1_faults :
    faultOf (prog 0x0200 [0xEE, 0x00, 0x80] mmc1State) = some (.unmodelledMmc1Rmw 0x8000) := by decide +kernel

theorem test_inc_4014_faults : faultOf (prog 0x8000 [0xEE, 0x14, 0x40] (start 0)) = some (.invalidMmioRead 0x4014) := by
  decide +kernel

theorem test_dec_absx :
    seen (fun t => (t.ram.read 0x310, getP t.flags, t.stepCycles)) (prog 0x8000 [0xDE, 0xF0, 0x02] { start 0 with x := 0x20 }) =
      some (0xFF, 0xA0, 7) := by decide +kernel

theorem test_dec_abs :
    seen (fun t => (t.ram.read 0x300, getP t.flags, t.stepCycles)) (prog 0x8000 [0xCE, 0x00, 0x03] (poke 0x0300 [0x01] (start 0))) =
      some (0x00, 0x22, 6) := by decide +kernel

theorem test_inx : seen (fun t => (t.x, getP t.flags)) (prog 0x8000 [0xE8] { start 0 with x := 0xFF }) = some (0x00, 0x22) := by
  decide +kernel

theorem test_iny : seen (fun t => (t.y, getP t.flags)) (prog 0x8000 [0xC8] { start 0 with y := 0x7F }) = some (0x80, 0xA0) := by
  decide +kernel

theorem test_dex : seen (fun t => (t.x, getP t.flags)) (prog 0x8000 [0xCA] (start 0)) = some (0xFF, 0xA0) := by decide +kernel

theorem test_dey : seen (fun t => (t.y, getP t.flags)) (prog 0x8000 [0x88] { start 0 with y := 1 }) = some (0x00, 0x22) := by
  decide +kernel

/-- The vectors of one accumulator opcode: A, the status byte in, and A and the status byte out. -/
abbrev shifts (op : Byte) (l : List (Byte × Byte × Byte × Byte)) : Bool :=
  l.all fun (a, p, r, q) => seen (fun t => (t.a, getP t.flags)) (prog 0x8000 [op] { start p with a := a }) == some (r, q)

theorem test_asl : shifts 0x0A [(0x81, 0, 0x02, 0x21)] := by decide +kernel

theorem test_lsr : shifts 0x4A [(0x01, 0, 0x00, 0x23)] := by decide +kernel

theorem test_rol : shifts 0x2A [(0x40, 1, 0x81, 0xA0), (0x80, 0, 0x00, 0x23)] := by decide +kernel

theorem test_ror : shifts 0x6A [(0x01, 1, 0x80, 0xA1), (0x00, 1, 0x80, 0xA0)] := by decide +kernel

/-! Control transfer (V1.1, V1.2, V2, V5; R270–R283) -/

theorem test_jmp_wraps :
    seen (fun t => (t.pc, t.stepCycles)) (prog 0xFFFD [0x4C, 0x00, 0x80] (start 0)) = some (0x8000, 3) := by decide +kernel

theorem test_jmp_ind_wraps :
    seen (fun t => (t.pc, t.stepCycles))
      (prog 0x8000 [0x6C, 0xFF, 0x10] (poke 0x00FF [0x00] (poke 0x0000 [0x90] (poke 0x0100 [0x12] (start 0))))) =
      some (0x9000, 5) := by decide +kernel

theorem test_jsr :
    seen (fun t => (t.ram.read 0x1FF, t.ram.read 0x1FE, t.sp, t.pc, t.stepCycles)) (prog 0x8000 [0x20, 0x34, 0x12] (start 0)) =
      some (0x80, 0x02, 0xFD, 0x1234, 6) := by decide +kernel

theorem test_rts :
    seen (fun t => (t.pc, t.sp, t.stepCycles)) (prog 0x8010 [0x60] (poke 0x01FE [0x02, 0x80] { start 0 with sp := 0xFD })) =
      some (0x8003, 0xFF, 6) := by decide +kernel

theorem test_rti :
    seen (fun t => (getP t.flags, t.flags.b, t.pc, t.sp, t.stepCycles))
      (prog 0x9000 [0x40] (poke 0x01FD [0x30, 0x02, 0x80] { start 0x04 with sp := 0xFC })) =
      some (0x30, true, 0x8002, 0xFF, 6) := by decide +kernel

theorem test_brk :
    seen (fun t => (t.ram.read 0x1FF, t.ram.read 0x1FE, t.ram.read 0x1FD))
      (prog 0x8000 [0x00, 0xEA] (poke 0xFFFE [0x00, 0x90] (start 0x20))) = some (0x80, 0x02, 0x30) := by decide +kernel

theorem test_brk_state :
    seen (fun t => (t.sp, getP t.flags, t.pc, t.stepCycles)) (prog 0x8000 [0x00, 0xEA] (poke 0xFFFE [0x00, 0x90] (start 0x20))) =
      some (0xFC, 0x24, 0x9000, 7) := by decide +kernel

/-- PC and the cycles of a branch. -/
abbrev branched (pc : Word) (op off p : Byte) : Option (Word × Nat) :=
  seen (fun t => (t.pc, t.stepCycles)) (prog pc [op, off] (start p))

theorem test_bne_forward :
    branched 0x8000 0xD0 0x05 0 = some (0x8007, 3) ∧ branched 0x80F0 0xD0 0x10 0 = some (0x8102, 4) ∧
      branched 0x8000 0xD0 0x80 0 = some (0x7F82, 4) := by decide +kernel

theorem test_bne_page_end :
    branched 0x80FD 0xD0 0x01 0 = some (0x8100, 4) ∧ branched 0x80FE 0xD0 0x00 0 = some (0x8100, 3) ∧
      branched 0x8010 0xD0 0xFE 0 = some (0x8010, 3) := by decide +kernel

theorem test_beq : branched 0x8000 0xF0 0x05 0 = some (0x8002, 2) ∧ branched 0x80F0 0xF0 0x7F 2 = some (0x8171, 4) := by
  decide +kernel

theorem test_bcc : branched 0x8000 0x90 0x05 0 = some (0x8007, 3) ∧ branched 0x8000 0x90 0x05 1 = some (0x8002, 2) := by
  decide +kernel

theorem test_bcs : branched 0x8000 0xB0 0x05 0 = some (0x8002, 2) ∧ branched 0x8000 0xB0 0x05 1 = some (0x8007, 3) := by
  decide +kernel

theorem test_bmi : branched 0x8000 0x30 0x80 0x80 = some (0x7F82, 4) ∧ branched 0x8000 0x30 0x80 0 = some (0x8002, 2) := by
  decide +kernel

theorem test_bpl : branched 0x8003 0x10 0xFB 0 = some (0x8000, 3) ∧ branched 0x8003 0x10 0xFB 0x80 = some (0x8005, 2) := by
  decide +kernel

theorem test_bvc : branched 0x8000 0x50 0x10 0 = some (0x8012, 3) ∧ branched 0x8000 0x50 0x10 0x40 = some (0x8002, 2) := by
  decide +kernel

theorem test_bvs : branched 0x8000 0x70 0x10 0 = some (0x8002, 2) ∧ branched 0x8000 0x70 0x10 0x40 = some (0x8012, 3) := by
  decide +kernel

/-! Flags (V6; R301–R308) -/

/-- The status byte after a flag instruction. -/
abbrev flagsAfter (op p : Byte) : Option Byte := seen (fun t => getP t.flags) (prog 0x8000 [op] (start p))

theorem test_clc : flagsAfter 0x18 0xFF = some 0xFE := by decide +kernel
theorem test_sec : flagsAfter 0x38 0x00 = some 0x21 := by decide +kernel
theorem test_cli : flagsAfter 0x58 0xFF = some 0xFB := by decide +kernel
theorem test_sei : flagsAfter 0x78 0x00 = some 0x24 := by decide +kernel
theorem test_cld : flagsAfter 0xD8 0xFF = some 0xF7 := by decide +kernel
theorem test_sed : flagsAfter 0xF8 0x00 = some 0x28 := by decide +kernel
theorem test_clv : flagsAfter 0xB8 0xFF = some 0xBF := by decide +kernel

theorem test_nop : seen (fun t => (t.pc, t.stepCycles)) (prog 0x8000 [0xEA] (start 0)) = some (0x8001, 2) := by decide +kernel

theorem test_unknown_opcode :
    faultOf (prog 0x8000 [0x02] (start 0)) = some (.unknownOpcode 0x8000 0x02) ∧
      faultOf (prog 0x8000 [0x1A] (start 0)) = some (.unknownOpcode 0x8000 0x1A) := by decide +kernel

/-! What a fault leaves (R170, R320, R323, R357) -/

/-- The read of `INC $2002` clears bit 7, its write faults, and no cycle is counted. -/
theorem test_fault_keeps_earlier_accesses :
    left (fun kind t => (kind, t.ppu.vblank, t.status, t.cycles))
      (prog 0x8000 [0xEE, 0x02, 0x20] { start 0 with ppu := { State.reset.ppu with vblank := true } }) =
      some (.invalidMmioWrite 0x2002, false, .faulted (.invalidMmioWrite 0x2002), 0) := by decide +kernel

/-- `ASL $8003` in ROM writes C before its write faults, and no N or Z after it. -/
theorem test_fault_keeps_earlier_flag :
    left (fun kind t => (kind, t.flags.c, t.flags.n, t.flags.z)) (prog 0x8000 [0x0E, 0x03, 0x80, 0x80] (start 0)) =
      some (.unmappedAddress 0x8003, true, false, false) := by decide +kernel

/-- The copy from page $40 stops at $4014, with the zeros of $4000–$4013 copied. -/
theorem test_fault_in_dma :
    left (fun kind t => (kind, t.ppu.oam.read 0, t.ppu.oam.read 0x13, t.ppu.oam.read 0x14))
      (prog 0x8000 [0x8D, 0x14, 0x40]
        { start 0 with a := 0x40, ppu := { State.reset.ppu with oam := [(0, 1), (0x13, 2), (0x14, 3)] } }) =
      some (.invalidMmioRead 0x4014, 0, 0, 3) := by decide +kernel

/-- In debug mode the host gets one BreakState with the fault, and a next signal takes no step after it. -/
theorem test_fault_in_debug_mode :
    left (fun _ t => (t.gate.published, faultOf (hostSignal .next t)))
      (prog 0x8000 [0x02] { start 0 with gate := { Gate.reset .debug [] with first := false } }) =
      some ([⟨0x8000, some (.unknownOpcode 0x8000 0x02)⟩], some (.unknownOpcode 0x8000 0x02)) := by decide +kernel

/-- A fetch at $4018 faults before anything is read (R322). -/
theorem test_fetch_faults : faultOf { start 0 with pc := 0x4018 } = some (.unmappedAddress 0x4018) := by decide +kernel

/-- The opcode read at PPUDATA has moved v when the operand read at $2008 faults, with PC still pc0 (R53, R161, R323). -/
theorem test_fetch_keeps_side_effect :
    left (fun kind t => (kind, t.ppu.v, t.pc))
      { start 0 with pc := 0x2007, ppu := { State.reset.ppu with buf := 0xA9 } } =
      some (.invalidMmioRead 0x2000, 1, 0x2007) := by decide +kernel

/-! Interrupts (V7), the gate (V1.8), the controller (V1.9), the mapper (V1.5, V9) -/

theorem test_nmi_entry :
    seen (fun t => (t.ram.read 0x1FF, t.ram.read 0x1FE, t.ram.read 0x1FD, t.sp, getP t.flags))
      (poke 0xFFFA [0x00, 0x90] { start 0x31 with pc := 0x8000, nmiLatch := true }) = some (0x80, 0x00, 0x21, 0xFC, 0x35) := by
  decide +kernel

theorem test_nmi_beats_irq :
    seen (fun t => (t.pc, t.nmiLatch, t.stepCycles))
      (poke 0xFFFA [0x00, 0x90] { start 0 with pc := 0x8000, nmiLatch := true, irqLine := true }) = some (0x9000, false, 7) := by
  decide +kernel

theorem test_irq_entry :
    seen (fun t => (t.ram.read 0x1FF, t.ram.read 0x1FE, t.ram.read 0x1FD, t.pc, t.flags.i))
      (poke 0xFFFE [0x00, 0xA0] { start 0 with pc := 0x8000, irqLine := true }) = some (0x80, 0x00, 0x20, 0xA000, true) := by
  decide +kernel

theorem test_irq_masked :
    seen (fun t => t.pc) (prog 0x8000 [0xEA] { start 0x04 with irqLine := true }) = some 0x8001 := by decide +kernel

theorem test_gate_publishes :
    seen (fun t => (t.gate.published, t.gate.waiting, t.pc, t.cycles))
      (prog 0x8000 [0xA9, 0x42] { start 0 with gate := Gate.reset .debug [0x8000] }) = some ([⟨0x8000, none⟩], true, 0x8000, 0) := by
  decide +kernel

theorem test_gate_next :
    seen (fun t => (t.a, t.pc, t.gate.stepping, breaksHere t))
      (prog 0x8000 [0xA9, 0x42]
        { start 0 with gate := { Gate.reset .debug [0x8000] with waiting := true, signals := [.next], published := [⟨0x8000, none⟩] } }) =
      some (0x42, 0x8002, true, true) := by decide +kernel

/-- A stop that came before a gate that breaks stops the core there, with no step taken (R359). -/
theorem test_stop_before_gate :
    seen (fun t => (t.status, t.pc, t.cycles, (hostStop t).status))
      (hostStop (prog 0x8000 [0xA9, 0x42] { start 0 with gate := Gate.reset .debug [0x8000] })) =
      some (.stopped, 0x8000, 0, .stopped) := by decide +kernel

/-- A second signal sent to one gate answers the next one (log entry 9). -/
theorem test_surplus_signal :
    seen (fun t => (t.gate.signals, t.gate.waiting))
      (prog 0x8000 [0xEA] { start 0 with gate := { Gate.reset .debug [] with waiting := true, signals := [.next, .stop] } }) =
      some ([.stop], false) := by decide +kernel

/-- The bits that reads of $4016 answer, one after the other. -/
abbrev padReads : Nat → State → List Byte
  | 0, _ => []
  | n + 1, s =>
    match memRead 0x4016 s with
    | .ok (d, t) => d :: padReads n t
    | .error _ => []

theorem test_pad_order :
    padReads 9 { State.reset with pad := { ptr := 0, strobe := false, buttons := some 0x89 } } =
      [1, 0, 0, 1, 0, 0, 0, 1, 1] := by decide +kernel

/-- MMC1 after writes to $8000. -/
abbrev serial (l : List Byte) : Mmc1 := l.foldl (fun m d => mmc1Write 0x8000 d m) Mmc1.reset

theorem test_mmc1_serial :
    (serial [0x00, 0x01]).shift = 0x02 ∧ (serial [0x00, 0x01]).count = 2 ∧
      (serial [0x00, 0x01, 0x00, 0x01, 0x00]).control = 0x0A ∧ (serial [0x00, 0x01, 0x00, 0x01, 0x00]).booted = true ∧
      (serial [0x00, 0x01, 0x00, 0x01, 0x00, 0x80]).control = 0x0E := by decide +kernel

/-- The image of a cartridge with nothing in its ROMs. -/
abbrev image (mapper prgPages chrPages : Nat) (prg : Memory) : CartImage :=
  { mapperNumber := mapper, fourScreen := false, prgPages := prgPages, prg := prg, chrPages := chrPages, chr := [],
    mirroring := .vertical, nromSram := false }

/-- PC after a load. -/
abbrev loadPc (im : CartImage) : Option Word :=
  match load { defaultParams with image := im } with
  | .next t => some t.pc
  | _ => none

theorem test_load_nrom : loadPc (image 0 1 0 [(0x3FFD, 0xC0)]) = some 0xC000 := by decide +kernel

theorem test_load_mmc1 : loadPc (image 1 8 0 [(0x1FFFD, 0xE0)]) = some 0xE000 := by decide +kernel

/-! The placing of a table word: decoded, and run by the first step after reset -/

theorem test_table_word :
    decodeTableWord 24 0x03008D = some (.staAbs 0x0300) ∧
      seen (fun t => t.pc) (State.reset.withFetchWord 24 0x03008D) = some 0x0003 := by decide +kernel

/-! What WellFormed refuses, one ill-formed term for each check. An `Instr` has no ill-formed term (R120, R126). -/

/-- The refusal of an image. -/
abbrev rejected (im : CartImage) : Option CartReject :=
  match im.toCart with
  | .ok _ => none
  | .error r => some r

theorem test_refuses_mapper : rejected (image 2 1 0 []) = some (.unknownMapper 2) := by decide +kernel
theorem test_refuses_fourScreen : rejected { image 0 1 0 [] with fourScreen := true } = some .fourScreen := by decide +kernel
theorem test_refuses_noPrgPage : rejected (image 1 0 0 []) = some .noPrgPage := by decide +kernel
theorem test_refuses_nromPrgPages : rejected (image 0 3 0 []) = some (.nromPrgPages 3) := by decide +kernel
theorem test_refuses_nromChrPages : rejected (image 0 2 2 []) = some (.nromChrPages 2) := by decide +kernel
theorem test_refuses_prgBytes : rejected (image 0 1 0 [(16384, 1)]) = some .prgBytes := by decide +kernel
theorem test_refuses_chrBytes : rejected { image 0 1 1 [] with chr := [(5, 1), (5, 2)] } = some .chrBytes := by decide +kernel
theorem test_accepts_mmc1 : rejected (image 1 16 16 [(0, 1), (262143, 2)]) = none := by decide +kernel

theorem test_memory_refuses :
    Memory.wf 2048 [(3, 1), (2, 1)] = false ∧ Memory.wf 2048 [(2048, 1)] = false ∧ Memory.wf 2048 [(0, 0)] = false ∧
      Memory.wf 2048 [(0, 1), (2047, 1)] = true := by decide +kernel

theorem test_memInit_refuses :
    MemInit.wf { defaultParams.mem with pal := [(32, 1)] } = false ∧ MemInit.wf { defaultParams.mem with oam := [(256, 1)] } = false ∧
      MemInit.wf defaultParams.mem = true := by decide +kernel

/-! Witnesses: for every obligation with hypotheses, a concrete case that meets all of them; for a statement of several clauses,
one for each at the boundary of its range. -/

/-- A next state exists. -/
abbrev goesOn (o : Host.Outcome State Fault Refusal) : Bool :=
  match o with
  | .next _ => true
  | _ => false

/-- A fault is there. -/
abbrev faults (o : Host.Outcome State Fault Refusal) : Bool :=
  match o with
  | .fault _ => true
  | _ => false

theorem exists_fault {o : Host.Outcome State Fault Refusal} (h : faults o = true) : ∃ kind t, o = .fault (.raised kind t) := by
  match o with
  | .fault (.raised kind t) => exact ⟨kind, t, rfl⟩
  | .next t => cases h
  | .refused r => cases h

/-- The fault of an operation. -/
abbrev errorOf {α : Type} (r : Result α) : Option FaultKind :=
  match r with
  | .ok _ => none
  | .error (.raised kind _) => some kind

theorem exists_next {o : Host.Outcome State Fault Refusal} (h : goesOn o = true) : ∃ t, o = .next t := by
  cases o with
  | next t => exact ⟨t, rfl⟩
  | fault e => cases h
  | refused r => cases h

theorem exists_next_and {i : Instr} {s : State} {p : State → Bool} (h : ran p i s = some true) :
    ∃ t, exec i s = .next t ∧ p t = true := by
  simp only [ran] at h
  cases he : exec i s with
  | next t =>
    rw [he] at h
    exact ⟨t, rfl, Option.some.inj h⟩
  | fault e =>
    rw [he] at h
    cases h
  | refused r =>
    rw [he] at h
    cases h

theorem forall_mem {α : Type} {l : List α} {p : α → Prop} [DecidablePred p] (h : l.all (fun a => decide (p a)) = true) :
    ∀ a ∈ l, p a := by
  simpa using h

theorem exists_ok {α : Type} {r : Result α} (h : r.isOk = true) : ∃ a, r = .ok a := by
  cases r with
  | ok a => exact ⟨a, rfl⟩
  | error e => cases h

theorem test_witness_LoadedState :
    defaultParams.image.toCart = .ok Cart.blank ∧ ∃ c, (image 1 16 2 [(262143, 7)]).toCart = .ok c ∧ c.mapper = .mmc1 :=
  ⟨rfl, _, rfl, rfl⟩

theorem test_witness_RefusedCartridges :
    Memory.wf (16384 * 16) [(262143, (7 : Byte))] = true ∧ Memory.wf (8192 * 2) [(16383, (7 : Byte))] = true ∧
      rejected (image 2 1 0 []) = some (.unknownMapper 2) ∧ rejected (image 1 1 0 []) = none ∧
      rejected (image 0 2 1 []) = none ∧ rejected (image 0 3 1 []) = some (.nromPrgPages 3) := by decide +kernel

theorem test_witness_LoadHasInvariant :
    let p := { defaultParams with scanline := 261, dot := 340, mem := { defaultParams.mem with ram := [(2047, 255)] } }
    p.image.toCart = .ok Cart.blank ∧ p.mem.wf = true ∧ p.scanline < 262 ∧ p.dot < 341 :=
  ⟨rfl, by decide +kernel, by decide, by decide⟩

theorem test_witness_StepKeepsInvariant :
    (State.reset.inv = true ∧ goesOn (step State.reset) = true) ∧
      ∃ s kind t, s.inv = true ∧ step s = .fault (.raised kind t) :=
  ⟨by decide +kernel, prog 0x0200 [0x02] (start 0), by
    obtain ⟨kind, t, h⟩ := exists_fault (o := step (prog 0x0200 [0x02] (start 0))) (by decide +kernel)
    exact ⟨kind, t, by decide +kernel, h⟩⟩

theorem test_witness_DecodeEncode : (Instr.jmpInd 0xFFFF).wellFormed = true := rfl

theorem test_witness_DecodeAcceptsOnlyEncodings : decode [0x6C, 0xFF, 0xFF, 0x00] = .ok (.jmpInd 0xFFFF, [0x00]) := by decide

theorem memRead_is {a : Word} {s : State} {d e : Byte} (h : memRead a s = .ok (d, s)) (hd : d = e) : memRead a s = .ok (e, s) :=
  hd ▸ h

/-- The reset state at an illegal byte. -/
abbrev atIllegal : State := poke 0x0000 [0xFF] State.reset

theorem test_witness_IllegalOpcodes :
    (0xFF : Byte) ∈ illegalOpcodes ∧ (0xFE : Byte) ∉ illegalOpcodes ∧ atIllegal.goes = true ∧ atIllegal.nmiLatch = false ∧
      atIllegal.irqPending = false ∧ memRead atIllegal.pc atIllegal = .ok (0xFF, atIllegal) :=
  ⟨by decide +kernel, by decide +kernel, by decide +kernel, by decide +kernel, by decide +kernel,
    memRead_is (memRead_ram _ (by decide +kernel)) (by decide +kernel)⟩

/-- An instruction of three bytes at the top of the address space, whose last byte is at $0000. -/
abbrev atTop : State := prog 0xFFFE [0xAD, 0x34, 0x12] (start 0)

theorem busReads_three {a : Word} {b1 b2 b3 : Byte} {s : State} (h1 : memRead a s = .ok (b1, s))
    (h2 : memRead (a + 1) s = .ok (b2, s)) (h3 : memRead (a + 1 + 1) s = .ok (b3, s)) : BusReads a [b1, b2, b3] s s :=
  ⟨s, h1, s, h2, s, h3, rfl⟩

/-- PC at PPUDATA, whose buffer holds an opcode byte, with v = 0. -/
abbrev atData (buf : Byte) : State := { start 0 with pc := 0x2007, ppu := { State.reset.ppu with buf := buf } }

/-- The same after the read: the buffer refilled and v moved on. -/
abbrev atDataRead (buf : Byte) : State := { atData buf with ppu := { (atData buf).ppu with buf := 0, v := 1 } }

theorem test_witness_StepRunsDecodedInstruction :
    (atTop.goes = true ∧ atTop.nmiLatch = false ∧ atTop.irqPending = false ∧ (Instr.ldaAbs 0x1234).wellFormed = true ∧
      BusReads atTop.pc (encode (.ldaAbs 0x1234)) atTop atTop) ∧
    (atData 0xEA).goes = true ∧ (atData 0xEA).nmiLatch = false ∧ (atData 0xEA).irqPending = false ∧
      BusReads (atData 0xEA).pc (encode .nop) (atData 0xEA) (atDataRead 0xEA) ∧ atDataRead 0xEA ≠ atData 0xEA := by
  refine ⟨⟨by decide +kernel, by decide +kernel, by decide +kernel, rfl, ?_⟩,
    by decide +kernel, by decide +kernel, by decide +kernel, ⟨_, rfl, rfl⟩, by decide +kernel⟩
  rw [show encode (.ldaAbs 0x1234) = [0xAD, 0x34, 0x12] by decide]
  exact busReads_three (memRead_is (memRead_prg _ (by decide +kernel)) (by decide +kernel))
    (memRead_is (memRead_prg _ (by decide +kernel)) (by decide +kernel))
    (memRead_is (memRead_ram _ (by decide +kernel)) (by decide +kernel))

/-- PC anywhere. -/
abbrev atPc (pc : Word) : State := { start 0 with pc := pc }

/-- The second clause: the operand byte faults after an opcode read with a side effect, or the opcode byte itself faults. -/
theorem test_witness_StepRunsDecodedInstruction_fault :
    ((atData 0xA9).goes = true ∧ (atData 0xA9).nmiLatch = false ∧ (atData 0xA9).irqPending = false ∧
      1 < (encode (.ldaImm 0)).length ∧
      BusReads (atData 0xA9).pc ((encode (.ldaImm 0)).take 1) (atData 0xA9) (atDataRead 0xA9) ∧
      readFault (atDataRead 0xA9) ((atData 0xA9).pc + BitVec.ofNat 16 1) = some (.invalidMmioRead 0x2000)) ∧
    ((atPc 0x2000).goes = true ∧ BusReads (atPc 0x2000).pc ((encode .nop).take 0) (atPc 0x2000) (atPc 0x2000) ∧
      readFault (atPc 0x2000) ((atPc 0x2000).pc + BitVec.ofNat 16 0) = some (.invalidMmioRead 0x2000)) ∧
    (atPc 0x4018).goes = true ∧ BusReads (atPc 0x4018).pc ((encode .nop).take 0) (atPc 0x4018) (atPc 0x4018) ∧
      readFault (atPc 0x4018) ((atPc 0x4018).pc + BitVec.ofNat 16 0) = some (.unmappedAddress 0x4018) :=
  ⟨⟨by decide +kernel, by decide +kernel, by decide +kernel, by decide, ⟨_, rfl, rfl⟩, by decide +kernel⟩,
    ⟨by decide +kernel, rfl, by decide +kernel⟩, by decide +kernel, rfl, by decide +kernel⟩

theorem test_witness_StepCountsCycles :
    let s : State := { start 0 with ppu := { State.reset.ppu with scanline := 261, dot := 340 } }
    s.goes = true ∧ s.ppu.scanline < 262 ∧ s.ppu.dot < 341 ∧ goesOn (step s) = true := by decide +kernel

theorem test_witness_StepTakesTwoToFiveHundredTwentyCycles :
    (prog 0x8000 [0xEA] (start 0)).goes = true ∧ seen State.stepCycles (prog 0x8000 [0xEA] (start 0)) = some 2 := by
  decide +kernel

theorem test_witness_FrameOfDots :
    let s : State := { start 0 with ppu := { State.reset.ppu with scanline := 261, dot := 340 } }
    s.ppu.scanline < 262 ∧ s.ppu.dot < 341 := by decide +kernel

theorem test_witness_InterruptEntryAndPriority :
    ({ start 0 with nmiLatch := true } : State).goes = true ∧
      (({ start 0 with irqLine := true } : State).goes = true ∧ ({ start 0 with irqLine := true } : State).irqPending = true) ∧
      (({ start 4 with irqLine := true } : State).goes = true ∧ ({ start 4 with irqLine := true } : State).irqPending = false) := by
  decide +kernel

theorem test_witness_NmiLatchSources : ∃ t, exec (.staAbs 0x2000) (start 0) = .next t :=
  exists_next (by decide +kernel)

theorem test_witness_StackPushPull :
    sameCell 0x01FD (0x0100 ||| (0xFF : Byte).setWidth 16) = false ∧
      sameCell 0x01FD (0x0100 ||| ((0xFF : Byte) - 1).setWidth 16) = false ∧ isPort 0x01FD = false ∧
      sameCell 0x09FF (0x0100 ||| (0xFF : Byte).setWidth 16) = true := by
  decide +kernel

theorem test_witness_RamMirrors : (0x1FFF : Word).toNat ≤ 0x1FFF ∧ (0x07FF : Word).toNat ≤ 0x1FFF ∧ (0x0000 : Word).toNat ≤ 0x1FFF := by
  decide

theorem test_witness_PortMirrorsAndIoHoles :
    ((0x3FFE &&& 7 : Word) ∈ [(0 : Word), 1, 3, 5, 6] ∧ isPpuPort 0x3FFA 2) ∧
      (∀ a ∈ [(0x2000 : Word), 0x3FFF], 0x2000 ≤ a.toNat ∧ a.toNat < 0x4000) ∧
      (∀ a ∈ [(0x4018 : Word), 0x401F], 0x4018 ≤ a.toNat ∧ a.toNat ≤ 0x401F) ∧
      ∀ a ∈ [(0x4000 : Word), 0x4013, 0x4015, 0x4017],
        (0x4000 ≤ a.toNat ∧ a.toNat ≤ 0x4013) ∨ a = 0x4015 ∨ a = 0x4017 :=
  ⟨⟨by decide +kernel, by simp only [isPpuPort]; decide +kernel⟩, forall_mem (by decide +kernel),
    forall_mem (by decide +kernel), forall_mem (by decide +kernel)⟩

theorem test_witness_PpuRegisterWrites :
    isPpuPort 0x2000 0 ∧ isPpuPort 0x3FF9 1 ∧ isPpuPort 0x2003 3 ∧ isPpuPort 0x200D 5 ∧ isPpuPort 0x3FFE 6 := by
  simp only [isPpuPort]
  decide +kernel

theorem test_witness_PpuStatusPort : isPpuPort 0x2002 2 ∧ isPpuPort 0x3FFA 2 := by
  simp only [isPpuPort]
  decide +kernel

theorem test_witness_OamDataPort : isPpuPort 0x2004 4 ∧ isPpuPort 0x3FFC 4 := by
  simp only [isPpuPort]
  decide +kernel

/-- A state whose PPU address is `v`, with or without CHR-ROM. -/
abbrev atVram (v : Word) (chrPages : Nat) : State :=
  { start 0 with ppu := { State.reset.ppu with v := v }, cart := { Cart.blank with chrPages := chrPages } }

theorem test_witness_PpuDataPort :
    isPpuPort 0x2007 7 ∧ isPpuPort 0x3FFF 7 ∧ 0x3F00 ≤ (atVram 0x3F00 0).ppu.v.toNat % 0x4000 ∧
      ¬ 0x3F00 ≤ (atVram 0x3EFF 0).ppu.v.toNat % 0x4000 ∧ errorOf (ppuWrite 0x1FFF 1 (atVram 0x1FFF 1)) = some (.unmappedAddress 0x1FFF) ∧
      ∃ t, ppuWrite 0x1FFF 1 (atVram 0x1FFF 0) = .ok t := by
  simp only [isPpuPort]
  exact ⟨by decide, by decide, by decide, by decide, by decide +kernel, exists_ok (by decide +kernel)⟩

theorem test_witness_PpuAddressSpace :
    (0x5FFF % 0x4000 < 0x2000 ∧ (atVram 0 1).cart.chrPages ≠ 0) ∧ ¬ (0x5FFF % 0x4000 < 0x2000 ∧ (atVram 0 0).cart.chrPages ≠ 0) := by
  decide +kernel

/-- A state whose controller has been read `ptr` times. -/
abbrev atButton (ptr : Nat) (buttons : Option Byte) : State :=
  { State.reset with pad := { ptr := ptr, strobe := false, buttons := buttons } }

theorem test_witness_ControllerPort :
    8 ≤ (atButton 8 none).pad.ptr ∧ ((atButton 7 (some 0x80)).pad.buttons = some 0x80 ∧ (atButton 7 (some 0x80)).pad.ptr < 8) ∧
      ((atButton 7 none).pad.buttons = none ∧ (atButton 7 none).pad.ptr < 8) := by decide +kernel

theorem test_witness_NromAccesses :
    State.reset.cart.mapper = .nrom ∧ (∀ a ∈ [(0x8000 : Word), 0xFFFF], 0x8000 ≤ a.toNat) ∧
      (∀ a ∈ [(0x6000 : Word), 0x7FFF], 0x6000 ≤ a.toNat ∧ a.toNat < 0x8000) ∧
      (∀ a ∈ [(0x4020 : Word), 0x5FFF], 0x4020 ≤ a.toNat ∧ a.toNat < 0x6000) ∧ State.reset.cart.nromSram = false ∧
      ({ Cart.blank with nromSram := true } : Cart).nromSram = true :=
  ⟨rfl, forall_mem (by decide +kernel), forall_mem (by decide +kernel), forall_mem (by decide +kernel), rfl, rfl⟩

/-- A state whose serial port holds `count` bits. -/
abbrev atBit (count : Nat) : State := { mmc1State with mmc1 := { Mmc1.reset with count := count } }

theorem test_witness_Mmc1SerialWrite :
    (∀ a ∈ [(0x8000 : Word), 0x9FFF, 0xA000, 0xBFFF, 0xC000, 0xDFFF, 0xE000, 0xFFFF], 0x8000 ≤ a.toNat) ∧
      (∀ n ∈ [0, 3, 4], (atBit n).cart.mapper = .mmc1 ∧ (atBit n).mmc1.count < 5) ∧ (atBit 3).mmc1.count < 4 ∧
      (atBit 4).mmc1.count = 4 ∧ (0x80 : Byte).getLsbD 7 = true ∧ (0x7F : Byte).getLsbD 7 = false :=
  ⟨forall_mem (by decide +kernel), forall_mem (by decide +kernel), by decide +kernel, by decide +kernel, by decide, by decide⟩

theorem test_witness_Mmc1FiveWritesCommit :
    ∀ a5 ∈ [(0x8000 : Word), 0xA000, 0xC000, 0xFFFF], ∃ s1 s2 s3 s4 s5,
      (mmc1State.cart.mapper = .mmc1 ∧ mmc1State.mmc1.shift = 0 ∧ mmc1State.mmc1.count = 0) ∧
      (∀ a ∈ [0x8000, 0x9000, 0xA000, 0xB000, a5], 0x8000 ≤ a.toNat) ∧
      (∀ d ∈ [(0 : Byte), 1, 0, 1, 0x7F], d.getLsbD 7 = false) ∧
      memWrite 0x8000 0 mmc1State = .ok (0, s1) ∧ memWrite 0x9000 1 s1 = .ok (0, s2) ∧ memWrite 0xA000 0 s2 = .ok (0, s3) ∧
      memWrite 0xB000 1 s3 = .ok (0, s4) ∧ memWrite a5 0x7F s4 = .ok (0, s5) := by
  intro a5 ha
  have h5 : ∀ a5 ∈ [(0x8000 : Word), 0xA000, 0xC000, 0xFFFF], 0x8000 ≤ a5.toNat := forall_mem (by decide +kernel)
  have h4 : ∀ a ∈ [0x8000, 0x9000, 0xA000, 0xB000, a5], 0x8000 ≤ a.toNat := by simpa using h5 a5 ha
  exact ⟨_, _, _, _, _, by decide +kernel, h4, forall_mem (by decide +kernel), memWrite_serial 0 rfl (by decide),
    memWrite_serial 1 rfl (by decide), memWrite_serial 0 rfl (by decide), memWrite_serial 1 rfl (by decide),
    memWrite_serial 0x7F rfl (h5 a5 ha)⟩

theorem test_witness_Mmc1Accesses :
    mmc1State.cart.mapper = .mmc1 ∧ (∀ a ∈ [(0x8000 : Word), 0xBFFF, 0xC000, 0xFFFF], 0x8000 ≤ a.toNat) ∧
      (∀ a ∈ [(0x6000 : Word), 0x7FFF], 0x6000 ≤ a.toNat ∧ a.toNat < 0x8000) ∧
      ∀ a ∈ [(0x4020 : Word), 0x5FFF], 0x4020 ≤ a.toNat ∧ a.toNat < 0x6000 :=
  ⟨rfl, forall_mem (by decide +kernel), forall_mem (by decide +kernel), forall_mem (by decide +kernel)⟩

theorem test_witness_OamDmaCopies :
    (∀ d ∈ [(0x00 : Byte), 0x1F, 0x80, 0xFF],
      d < 0x20 ∨ 0x80 ≤ d ∨ (0x60 ≤ d ∧ (State.reset.cart.mapper = .mmc1 ∨ State.reset.cart.nromSram = true))) ∧
      (∀ d ∈ [(0x60 : Byte), 0x7F],
        d < 0x20 ∨ 0x80 ≤ d ∨ (0x60 ≤ d ∧ (mmc1State.cart.mapper = .mmc1 ∨ mmc1State.cart.nromSram = true))) ∧
      ∀ d ∈ [(0x20 : Byte), 0x3F, 0x40, 0x41, 0x5F, 0x60, 0x7F],
        ¬ (d < 0x20 ∨ 0x80 ≤ d ∨ (0x60 ≤ d ∧ (State.reset.cart.mapper = .mmc1 ∨ State.reset.cart.nromSram = true))) := by
  decide +kernel

theorem test_witness_BusReadFrame :
    (memRead 0x0000 State.reset = .ok (0, State.reset) ∧ readHasSideEffect 0x0000 = false) ∧
      (∃ r, memRead 0x2002 State.reset = .ok r) ∧
      memRead 0x4014 State.reset = .error (.raised (.invalidMmioRead 0x4014) State.reset) :=
  ⟨⟨memRead_is (memRead_ram _ (by decide)) (by decide +kernel), by decide +kernel⟩, exists_ok (by decide +kernel), rfl⟩

theorem test_witness_Loads :
    rowsLda (.imm 5) = some ⟨.ldaImm 5, 0xA9, 2, false⟩ ∧ rowsLdx (.mem (.zpY 5)) = some ⟨.ldxZpY 5, 0xB6, 4, false⟩ ∧
      rowsLdy (.mem (.absX 0x2000)) = some ⟨.ldyAbsX 0x2000, 0xBC, 4, true⟩ ∧
      (Form.mem (.absX 0x2000)).readFault (start 0) = some (.invalidMmioRead 0x2000) ∧
      (Form.mem (.absX 0x1FFF)).readFault (start 0) = none := by decide +kernel

theorem test_witness_Stores :
    rowsSta (.indY 5) = some ⟨.staIndY 5, 0x91, 6, false⟩ ∧ rowsStx (.zpY 5) = some ⟨.stxZpY 5, 0x96, 4, false⟩ ∧
      rowsSty (.abs 0x2002) = some ⟨.styAbs 0x2002, 0x8C, 4, false⟩ ∧
      writeFault (start 0) 0x2002 0 = some (.invalidMmioWrite 0x2002) ∧ writeFault (start 0) 0x2003 0 = none ∧
      writeFault (start 0) 0x4014 0x03 = none ∧ writeFault (start 0) 0x4014 0x1F = none ∧
      writeFault (start 0) 0x4014 0x20 = some (.invalidMmioRead 0x2000) ∧
      writeFault (start 0) 0x4014 0x40 = some (.invalidMmioRead 0x4014) ∧
      writeFault (start 0) 0x4014 0x41 = some (.unmappedAddress 0x4100) := by decide +kernel

theorem test_witness_ReadingInstructionsLeaveMemory :
    storesToMemory (.ldaAbs 0x2002) = false ∧ isPort 0x4014 = false ∧ ∃ t, exec (.ldaAbs 0x2002) (start 0) = .next t :=
  ⟨by decide, by decide, exists_next (by decide +kernel)⟩

theorem test_witness_StoringInstructionsFrame :
    rowsInc ∈ storingRows ∧ rowsInc (.abs 0x0010) = some ⟨.incAbs 0x0010, 0xEE, 6, false⟩ ∧
      (∃ t, exec (.incAbs 0x0010) (start 0) = .next t) ∧
      (∀ a ∈ [(0x000F : Word), 0x0011, 0x080F, 0x8000],
        isPort a = false ∧ sameCell a ((Place.abs 0x0010).ea (start 0)) = false ∧
          ¬ (0x8000 ≤ a.toNat ∧ 0x8000 ≤ ((Place.abs 0x0010).ea (start 0)).toNat)) ∧
      ¬ isPpuPort ((Place.abs 0x0010).ea (start 0)) 7 ∧ ¬ isPpuPort ((Place.abs 0x0010).ea (start 0)) 4 := by
  refine ⟨by simp [storingRows], rfl, exists_next (by decide +kernel), forall_mem (by decide +kernel), ?_, ?_⟩ <;>
  · simp only [isPpuPort]
    decide +kernel

theorem test_witness_PushingInstructionsFrame :
    ((Instr.brk, 3) ∈ [(Instr.pha, 1), (.php, 1), (.brk, 3)] ∧ ∃ t, exec .brk (start 0) = .next t) ∧
      (∃ addr, Instr.jsr 0x1234 = .jsr addr) ∧ (∃ t, exec (.jsr 0x1234) (start 0) = .next t) ∧
      ∀ a ∈ [(0x01FC : Word), 0x0200], isPort a = false ∧
        ∀ k < 3, sameCell a (0x0100 ||| ((start 0).sp - BitVec.ofNat 8 k).setWidth 16) = false :=
  ⟨⟨by simp, exists_next (by decide +kernel)⟩, ⟨_, rfl⟩, exists_next (by decide +kernel), forall_mem (by decide +kernel)⟩

theorem test_witness_Arithmetic :
    rowsAdc (.mem (.indX 5)) = some ⟨.adcIndX 5, 0x61, 6, false⟩ ∧ rowsSbc (.imm 5) = some ⟨.sbcImm 5, 0xE9, 2, false⟩ ∧
      (Form.imm 5).readFault (start 0) = none ∧ (Form.mem (.indX 5)).readFault (start 0) = none ∧
      (Form.mem (.abs 0x4014)).readFault (start 0) = some (.invalidMmioRead 0x4014) := by decide +kernel

theorem test_witness_LogicalInstructions :
    rowsAnd (.imm 5) = some ⟨.andImm 5, 0x29, 2, false⟩ ∧ rowsOra (.mem (.zp 5)) = some ⟨.oraZp 5, 0x05, 3, false⟩ ∧
      rowsEor (.mem (.absY 0x4018)) = some ⟨.eorAbsY 0x4018, 0x59, 4, true⟩ ∧
      (Form.mem (.zp 5)).readFault (start 0) = none ∧
      (Form.mem (.absY 0x4018)).readFault (start 0) = some (.unmappedAddress 0x4018) := by decide +kernel

theorem test_witness_BitAndCompares :
    rowsBit (.mem (.zp 5)) = some ⟨.bitZp 5, 0x24, 3, false⟩ ∧ rowsCmp (.mem (.indY 5)) = some ⟨.cmpIndY 5, 0xD1, 5, true⟩ ∧
      rowsCpx (.imm 5) = some ⟨.cpxImm 5, 0xE0, 2, false⟩ ∧ rowsCpy (.mem (.abs 0x2002)) = some ⟨.cpyAbs 0x2002, 0xCC, 4, false⟩ ∧
      (Form.mem (.abs 0x2002)).readFault (start 0) = none ∧
      (Form.mem (.abs 0x2003)).readFault (start 0) = some (.invalidMmioRead 0x2003) := by decide +kernel

theorem test_witness_IncrementAndDecrementMemory :
    rowsInc (.absX 0x10) = some ⟨.incAbsX 0x10, 0xFE, 7, false⟩ ∧ rowsDec (.zpX 5) = some ⟨.decZpX 5, 0xD6, 6, false⟩ ∧
      (rmwFault (start 0) 0x10 = none ∧ readFault (start 0) 0x10 = none ∧ writeFault (start 0) 0x10 1 = none) ∧
      rmwFault mmc1State 0x8000 = some (.unmodelledMmc1Rmw 0x8000) ∧ rmwFault mmc1State 0x7FFF = none ∧
      (rmwFault (start 0) 0x2003 = none ∧ readFault (start 0) 0x2003 = some (.invalidMmioRead 0x2003)) ∧
      (readFault (start 0) 0x2002 = none ∧ writeFault (start 0) 0x2002 1 = some (.invalidMmioWrite 0x2002)) := by decide +kernel

theorem test_witness_ShiftsAndRotates :
    rowsAsl (.zp 5) = some ⟨.aslZp 5, 0x06, 5, false⟩ ∧ rowsLsr (.zpX 5) = some ⟨.lsrZpX 5, 0x56, 6, false⟩ ∧
      rowsRol (.abs 5) = some ⟨.rolAbs 5, 0x2E, 6, false⟩ ∧ rowsRor (.absX 5) = some ⟨.rorAbsX 5, 0x7E, 7, false⟩ ∧
      (rmwFault (start 0) 5 = none ∧ readFault (start 0) 5 = none ∧ writeFault (start 0) 5 1 = none) ∧
      rmwFault mmc1State 0x8000 = some (.unmodelledMmc1Rmw 0x8000) ∧
      (rmwFault (start 0) 0x2003 = none ∧ readFault (start 0) 0x2003 = some (.invalidMmioRead 0x2003)) ∧
      (rmwFault (start 0) 0x8003 = none ∧ readFault (start 0) 0x8003 = none ∧
        writeFault (start 0) 0x8003 1 = some (.unmappedAddress 0x8003)) := by decide +kernel

theorem test_witness_Jumps :
    readFault (start 0) 0x2000 = some (.invalidMmioRead 0x2000) ∧
      (readFault (start 0) 0x4017 = none ∧ readFault (start 0) 0x4018 = some (.unmappedAddress 0x4018)) ∧
      (readFault (start 0) 0x10FF = none ∧ readFault (start 0) 0x1000 = none) := by decide +kernel

theorem test_witness_ReturnsUndoEntries :
    (∃ t, exec (.jsr 0x1234) (start 0) = .next t) ∧ (∃ t, exec .brk (start 0) = .next t) ∧
      (∀ vec ∈ [nmiVector, irqVector], ∃ t, interruptEntry vec (start 0) = .ok t) ∧
      goesOn (exec .rts (start 0)) = true ∧ goesOn (exec .rti (start 0)) = true := by
  refine ⟨exists_next (by decide +kernel), exists_next (by decide +kernel), ?_, by decide +kernel, by decide +kernel⟩
  intro vec hv
  simp only [List.mem_cons, List.mem_nil_iff, or_false] at hv
  rcases hv with rfl | rfl
  all_goals exact exists_ok (by decide +kernel)

/-- A state in which most instructions change something. -/
abbrev busy : State := { start 0xFF with a := 1, x := 2, y := 3 }

theorem test_witness_OnlyWritersWrite :
    (∃ t, exec .txa busy = .next t ∧ (t.a != busy.a) = true) ∧ (∃ t, exec .tax busy = .next t ∧ (t.x != busy.x) = true) ∧
      (∃ t, exec .tay busy = .next t ∧ (t.y != busy.y) = true) ∧ (∃ t, exec .txs busy = .next t ∧ (t.sp != busy.sp) = true) ∧
      (∃ t, exec .clc busy = .next t ∧ (t.flags.c != busy.flags.c) = true) ∧
      (∃ t, exec .clv busy = .next t ∧ (t.flags.v != busy.flags.v) = true) ∧
      (∃ t, exec .cli busy = .next t ∧ (t.flags.i != busy.flags.i) = true) ∧
      ∃ t, exec .inx busy = .next t ∧ (t.flags.n != busy.flags.n) = true := by
  refine ⟨?_, ?_, ?_, ?_, ?_, ?_, ?_, ?_⟩
  all_goals exact exists_next_and (by decide +kernel)

theorem test_witness_DecimalFlagIsIgnored :
    (∃ t, exec .plp busy = .next t) ∧ (∀ vec ∈ [nmiVector, irqVector], ∃ t, interruptEntry vec busy = .ok t) ∧
      Instr.adcImm 5 ≠ .php ∧ Instr.adcImm 5 ≠ .brk := by
  refine ⟨exists_next (by decide +kernel), ?_, by decide, by decide⟩
  intro vec hv
  simp only [List.mem_cons, List.mem_nil_iff, or_false] at hv
  rcases hv with rfl | rfl
  all_goals exact exists_ok (by decide +kernel)

theorem test_witness_StoredBreakFlagIsInvisible :
    (∃ t, exec .rti busy = .next t) ∧ ∀ vec ∈ [nmiVector, irqVector], ∃ t, interruptEntry vec busy = .ok t := by
  refine ⟨exists_next (by decide +kernel), ?_⟩
  intro vec hv
  simp only [List.mem_cons, List.mem_nil_iff, or_false] at hv
  rcases hv with rfl | rfl
  all_goals exact exists_ok (by decide +kernel)

/-- A running state whose gate breaks, with the signals that have come. -/
abbrev held (signals : List Signal) : State :=
  { State.reset with gate := { Gate.reset .debug [] with signals := signals } }

theorem test_witness_DebugGateIsInvisible :
    (State.reset.goes = true ∧
      ({ State.reset with gate := { Gate.reset .debug [0x1234] with first := false } } : State).goes = true ∧
      State.reset.gate.stopRequested = false ∧ (Gate.reset .debug [0x1234]).stopRequested = false) ∧
      ∀ l ∈ [[], [Signal.stop], [Signal.next], [Signal.continue, Signal.stop]],
        (held l).status = .running ∧ breaksHere (held l) = true ∧ (held l).gate.signals = l ∧
          (hostStop (held l)).gate.stopRequested = true ∧ breaksHere (hostStop (held l)) = true := by decide +kernel

theorem test_witness_HostOperationsAndHaltedCore :
    ((held []).status = .running ∧ ({ held [] with gate := { (held []).gate with waiting := true } } : State).gate.waiting = true) ∧
      (State.reset.status = .running ∧ goesOn (step (hostStop State.reset)) = true ∧
        goesOn (step (hostStop (held []))) = true) ∧
      ((prog 0x0200 [0x02] (start 0)).goes = true ∧ faults (step (prog 0x0200 [0x02] (start 0))) = true) ∧
      ({ State.reset with status := .faulted (.unmappedAddress 0x5000) } : State).status = .faulted (.unmappedAddress 0x5000) ∧
      ({ State.reset with status := .stopped } : State).status = .stopped := by decide +kernel

theorem test_witness_CanonicalMemoriesAreEqual :
    Memory.wf 2048 [(0, 1), (2047, 255)] = true ∧ ∀ a < 2048, Memory.read [(0, 1), (2047, 255)] a = Memory.read [(0, 1), (2047, 255)] a :=
  ⟨by decide +kernel, fun _ _ => rfl⟩

end Sys2Proof.Tests
end

section
/-! The stack primitives (10_state.md R28): which bytes an observation depends on, and what a push leaves of them. -/

namespace Sys2Proof.Machine

/-- A word as the statements write it: its high byte times 256 plus its low byte (R8). -/
theorem mkWord_eq_ofNat (lo hi : Byte) :
    mkWord lo hi = BitVec.ofNat 16 (256 * hi.toNat + lo.toNat) := by
  rw [← mkWord_toNat, BitVec.ofNat_toNat, BitVec.setWidth_eq]

/-- A stack address observes its RAM byte (R24, R62). -/
@[simp] theorem memObserve_stack (sp : Byte) (s : State) :
    memObserve (stackAddress sp) s = s.ram.read (0x100 + sp.toNat) := by
  simp only [memObserve, memRead_stack]

/-- What an observation of an address that is no device port depends on: the address's own byte of RAM, the cartridge with
its bank registers, and the cartridge RAM (R62, R63, R90). -/
theorem memObserve_congr {a : Word} {s t : State} (hport : isPort a = false)
    (hram : a.toNat ≤ 0x1FFF → t.ram.read (a.toNat % 2048) = s.ram.read (a.toNat % 2048))
    (hcart : t.cart = s.cart) (hmmc1 : t.mmc1 = s.mmc1) (hcartRam : t.cartRam = s.cartRam) :
    memObserve a t = memObserve a s := by
  by_cases hlow : a.toNat ≤ 0x1FFF
  · simp only [memObserve, memRead_ram _ hlow, hram hlow]
  have hppu : ¬ a.toNat ≤ 0x3FFF := by
    intro h
    simp [isPort, show 0x2000 ≤ a.toNat by omega, show a.toNat < 0x4000 by omega] at hport
  have hpad : ¬ a.toNat = 0x4016 := by
    intro h
    simp [isPort, show a = 0x4016 from BitVec.eq_of_toNat_eq h] at hport
  have hprg : prgOffset t a.toNat = prgOffset s a.toNat := by simp only [prgOffset, prgPage, hcart, hmmc1]
  simp only [memObserve, memRead, hlow, hppu, hpad, if_false, cartRead, hprg, hcart, hcartRam]
  split_ifs <;> rfl

/-- A write to one stack slot leaves every other byte of RAM as it was, seen through any mirror (R63). -/
theorem read_write_stackSlot_of_not_sameCell {a : Word} {sp : Byte} (hcell : sameCell a (stackAddress sp) = false)
    (ha : a.toNat ≤ 0x1FFF) (m : Memory) (d : Byte) :
    (m.write (0x100 + sp.toNat) d).read (a.toNat % 2048) = m.read (a.toNat % 2048) := by
  refine Memory.read_write_other m _ d fun heq => ?_
  have := sp.isLt
  simp [sameCell, stackAddress_toNat, show a.toNat < 0x2000 by omega, show 0x100 + sp.toNat < 0x2000 by omega] at hcell
  omega

/-- Two pushes in a row fill two slots, also where SP wraps (R24). -/
theorem stackSlot_ne_next (sp : Byte) : 0x100 + sp.toNat ≠ 0x100 + (sp - 1).toNat := by bv_omega

/-- A push as the bus sees it, and the pull that undoes it (R28). -/
theorem push_spec (v : Byte) (s : State) :
    ∃ t, push v s = .ok t ∧ t = { s with ram := t.ram, sp := s.sp - 1 } ∧
      memObserve (stackAddress s.sp) t = v ∧
      (∀ a : Word, sameCell a (stackAddress s.sp) = false → isPort a = false → memObserve a t = memObserve a s) ∧
      pull t = .ok (v, { t with sp := s.sp }) := by
  refine ⟨_, push_eq v s, rfl, ?_, fun a hcell hport => ?_, ?_⟩
  · simp only [memObserve_stack, State.setSp_ram, State.setRam_ram, Memory.read_write_same]
  · exact memObserve_congr hport (fun ha => read_write_stackSlot_of_not_sameCell hcell ha _ _) rfl rfl rfl
  · simp only [pull_eq, State.setSp_ram, State.setSp_sp, State.setRam_ram, BitVec.sub_add_cancel, Memory.read_write_same]
    rfl

/-- A 16-bit push as the bus sees it: the two slots are distinct, so the second push spares the first byte (R28). -/
theorem push16_spec (v : Word) (s : State) :
    ∃ t, push16 v s = .ok t ∧ t = { s with ram := t.ram, sp := s.sp - 2 } ∧
      memObserve (stackAddress s.sp) t = highByte v ∧
      memObserve (stackAddress (s.sp - 1)) t = lowByte v ∧
      (∀ a : Word, sameCell a (stackAddress s.sp) = false → sameCell a (stackAddress (s.sp - 1)) = false →
        isPort a = false → memObserve a t = memObserve a s) ∧
      pull16 t = .ok (v, { t with sp := s.sp }) := by
  have hhigh : ((s.ram.write (0x100 + s.sp.toNat) (highByte v)).write (0x100 + (s.sp - 1).toNat) (lowByte v)).read
      (0x100 + s.sp.toNat) = highByte v :=
    (Memory.read_write_other _ _ _ (stackSlot_ne_next s.sp)).trans (Memory.read_write_same ..)
  refine ⟨_, push16_eq v s, rfl, ?_, ?_, fun a hcell hcell1 hport => ?_, ?_⟩
  · rw [memObserve_stack]
    exact hhigh
  · simp only [memObserve_stack, State.setSp_ram, State.setRam_ram, Memory.read_write_same]
  · refine memObserve_congr hport (fun ha => ?_) rfl rfl rfl
    exact (read_write_stackSlot_of_not_sameCell hcell1 ha _ _).trans (read_write_stackSlot_of_not_sameCell hcell ha _ _)
  · have hfirst : s.sp - 2 + 1 = s.sp - 1 := by bv_omega
    simp only [pull16_eq, State.setSp_ram, State.setSp_sp, State.setRam_ram, hfirst, BitVec.sub_add_cancel,
      Memory.read_write_same, hhigh, mkWord_lowByte_highByte]
    rfl

/-- A pull as the bus sees it (R28). -/
theorem pull_spec (s : State) :
    pull s = .ok (memObserve (stackAddress (s.sp + 1)) s, { s with sp := s.sp + 1 }) := by
  rw [pull_eq, memObserve_stack]
  rfl

/-- A 16-bit pull as the bus sees it, the low byte pulled first (R28). -/
theorem pull16_spec (s : State) :
    pull16 s = .ok
      (BitVec.ofNat 16 (256 * (memObserve (stackAddress (s.sp + 2)) s).toNat +
        (memObserve (stackAddress (s.sp + 1)) s).toNat),
       { s with sp := s.sp + 2 }) := by
  rw [pull16_eq, memObserve_stack, memObserve_stack, mkWord_eq_ofNat]
  rfl

/-- Settles O19: each primitive has a closed answer on RAM and SP (`push_eq` and its companions), and an observation of
another cell does not depend on the slot it writes. -/
theorem stackPushPull : Obligations.StackPushPull :=
  ⟨push_spec, push16_spec, fun s => ⟨pull_spec s, pull16_spec s⟩⟩

end Sys2Proof.Machine
end

section
/-! RAM and the MMC1 serial port on the bus (20_memory.md R63, R97, R98): the mirrors of a RAM address, and five serial writes
as one run. -/

namespace Sys2Proof.Machine

/-! RAM mirrors -/

/-- The mask of R63 takes an address modulo the 2 KiB of RAM. -/
theorem ramMask_toNat (a : Word) : (a &&& 0x07FF).toNat = a.toNat % 2048 :=
  (BitVec.toNat_and a 0x07FF).trans (Nat.and_two_pow_sub_one_eq_mod a.toNat 11)

/-- Two addresses are mirrors of one RAM byte when they agree modulo 2048 (R63). -/
theorem ramMask_inj {a b : Word} : b &&& 0x07FF = a &&& 0x07FF ↔ b.toNat % 2048 = a.toNat % 2048 := by
  rw [← BitVec.toNat_inj, ramMask_toNat, ramMask_toNat]

/-- Settles O20: the mask is a remainder (`ramMask_toNat`), so a write reaches exactly the reads that agree with it modulo
2048 (`Memory.read_write`). -/
theorem ramMirrors : Obligations.RamMirrors := by
  intro a s ha
  refine ⟨by rw [ramMask_toNat, memRead_ram s ha], fun d => ⟨_, memWrite_ram d s ha, rfl, fun b hb => ?_⟩⟩
  simp only [memRead_ram _ hb, ramMask_inj, ramMask_toNat, State.setRam_ram, Memory.read_write]

/-! Five serial writes -/

/-- The state with `count` bits `shift` in the serial port of MMC1 and all else as in `s` (R95). -/
def withSerial (s : State) (shift : Five) (count : Nat) : State :=
  s.setMmc1 { s.mmc1 with shift := shift, count := count }

theorem withSerial_empty {s : State} (hshift : s.mmc1.shift = 0) (hcount : s.mmc1.count = 0) : withSerial s 0 0 = s :=
  (congrArg₂ (withSerial s) hshift hcount).symm

/-- A write with bit 7 clear to a port of fewer than four bits loads one bit and does nothing else (R97). -/
theorem memWrite_withSerial_load {s t : State} {a : Word} {d : Byte} {shift : Five} {n : Nat}
    (hm : s.cart.mapper = .mmc1) (ha : 0x8000 ≤ a.toNat) (h7 : d.getLsbD 7 = false) (hn : n < 4)
    (hw : memWrite a d (withSerial s shift n) = .ok (0, t)) :
    t = withSerial s (shift ||| (serialBit d <<< n)) (n + 1) := by
  have hload := memWrite_serial d (s := withSerial s shift n) hm ha
  rw [mmc1Write_load a.toNat h7 rfl hn, hw] at hload
  exact (Prod.mk.inj (Except.ok.inj hload)).2

/-- A write with bit 7 clear to a port of four bits commits five bits and empties the port (R97, R98). -/
theorem memWrite_withSerial_commit {s t : State} {a : Word} {d : Byte} {shift : Five}
    (hm : s.cart.mapper = .mmc1) (ha : 0x8000 ≤ a.toNat) (h7 : d.getLsbD 7 = false)
    (hw : memWrite a d (withSerial s shift 4) = .ok (0, t)) :
    t = s.setMmc1 (mmc1Commit a.toNat (shift ||| (serialBit d <<< 4)) (withSerial s 0 0).mmc1) := by
  have hcommit := memWrite_serial d (s := withSerial s shift 4) hm ha
  rw [mmc1Write_commit a.toNat h7 rfl, hw] at hcommit
  exact (Prod.mk.inj (Except.ok.inj hcommit)).2

/-- The bits that five serial writes load, the first as bit 0 (R97). -/
def serialValue (d1 d2 d3 d4 d5 : Byte) : Five :=
  0 ||| (serialBit d1 <<< 0) ||| (serialBit d2 <<< 1) ||| (serialBit d3 <<< 2) ||| (serialBit d4 <<< 3) ||| (serialBit d5 <<< 4)

theorem serialBit_getLsbD (d : Byte) (i : Nat) : (serialBit d).getLsbD i = (decide (i = 0) && d.getLsbD 0) := by
  cases h : d.getLsbD 0 with
  | false => simp only [serialBit, h, Bool.false_eq_true, if_false, Bool.and_false]; exact BitVec.getLsbD_zero
  | true => simp [serialBit, h, BitVec.getLsbD_one]

/-- Each write's bit 0 stands at the write's own place in the value (R97, R98). -/
theorem serialValue_getLsbD (d1 d2 d3 d4 d5 : Byte) :
    (serialValue d1 d2 d3 d4 d5).getLsbD 0 = d1.getLsbD 0 ∧ (serialValue d1 d2 d3 d4 d5).getLsbD 1 = d2.getLsbD 0 ∧
      (serialValue d1 d2 d3 d4 d5).getLsbD 2 = d3.getLsbD 0 ∧ (serialValue d1 d2 d3 d4 d5).getLsbD 3 = d4.getLsbD 0 ∧
      (serialValue d1 d2 d3 d4 d5).getLsbD 4 = d5.getLsbD 0 := by
  simp only [serialValue, BitVec.getLsbD_or, BitVec.getLsbD_shiftLeft, serialBit_getLsbD]
  simp

/-- Bits 14..13 of an address, as the commit reads them (R98). -/
theorem commitSelect_toNat (a : Word) : (a.extractLsb 14 13).toNat = a.toNat / 8192 % 4 := by
  rw [BitVec.extractLsb_toNat, Nat.shiftRight_eq_div_pow]

/-- Settles O30: from an empty port, four loads build up the bits (`memWrite_withSerial_load`) and the fifth write commits
them (`memWrite_withSerial_commit`); the first four addresses enter no intermediate state. -/
theorem mmc1FiveWritesCommit : Obligations.Mmc1FiveWritesCommit := by
  intro s s1 s2 s3 s4 s5 a1 a2 a3 a4 a5 d1 d2 d3 d4 d5 hm hshift hcount ha hd w1 w2 w3 w4 w5
  have hempty : withSerial s 0 0 = s := withSerial_empty hshift hcount
  rw [← hempty] at w1
  obtain rfl := memWrite_withSerial_load hm (ha a1 (by simp)) (hd d1 (by simp)) (by decide) w1
  obtain rfl := memWrite_withSerial_load hm (ha a2 (by simp)) (hd d2 (by simp)) (by decide) w2
  obtain rfl := memWrite_withSerial_load hm (ha a3 (by simp)) (hd d3 (by simp)) (by decide) w3
  obtain rfl := memWrite_withSerial_load hm (ha a4 (by simp)) (hd d4 (by simp)) (by decide) w4
  obtain rfl := memWrite_withSerial_commit hm (ha a5 (by simp)) (hd d5 (by simp)) w5
  refine ⟨rfl, serialValue d1 d2 d3 d4 d5, serialValue_getLsbD d1 d2 d3 d4 d5, ?_⟩
  rw [commitSelect_toNat, hempty]
  rfl

end Sys2Proof.Machine
end

section
/-! The register transfers (41_load_store_transfer.md R207–R212): an implied instruction is its operation from the prepared
state, and a transfer's operation answers at once. -/

namespace Sys2Proof.Machine

/-- The model's N and Z from a byte are the statements' (R9). -/
theorem setNZ_eq_nzFrom (v : Byte) (f : Flags) : setNZ v f = nzFrom v f := rfl

/-- An implied instruction of 2 cycles acts alone when its operation, from the prepared state, answers the effect (R130). -/
theorem actsAlone_of_implied {i : Instr} {opcode : Byte} {op : Operation} {effect : State → State}
    (hencode : encode i = [opcode]) (hexec : ∀ s, exec i s = runInstr 2 false 0 modeImp op s)
    (hop : ∀ s, op s.pc ⟨.nil, false⟩ (s.prepared 0 2) = .ok { effect s with pc := s.pc + 1, stepCycles := 2 }) :
    ActsAlone i opcode effect := by
  intro s
  refine ⟨hencode, ?_⟩
  rw [hexec, runInstr_implied, hop]
  rfl

/-- From the prepared state a transfer copies the byte it would read before PC and the cycles are set, and takes N and Z from
it (R207–R211). -/
theorem transferTo_prepared (r : Reg) {v : State → Byte} (pc0 : Word) (m : Addressed) {s : State} {n k : Nat}
    (hv : v (s.prepared n k) = v s) :
    transferTo r v pc0 m (s.prepared n k) =
      .ok (((writeReg r (v s) s).setFlags (nzFrom (v s) s.flags)).prepared n k) := by
  simp only [transferTo, hv, setNZ_eq_nzFrom]
  cases r <;> rfl

/-- An implied instruction that copies a byte PC and the cycles do not enter into a register acts alone (R207–R211). -/
theorem actsAlone_of_transferTo {i : Instr} {opcode : Byte} {r : Reg} {v : State → Byte} (hencode : encode i = [opcode])
    (hexec : ∀ s, exec i s = runInstr 2 false 0 modeImp (transferTo r v) s) (hv : ∀ s, v (s.prepared 0 2) = v s) :
    ActsAlone i opcode fun s => (writeReg r (v s) s).setFlags (nzFrom (v s) s.flags) := by
  refine actsAlone_of_implied hencode hexec fun s => ?_
  rw [transferTo_prepared r s.pc _ (hv s)]
  cases r <;> rfl

/-- Settles O38: TAX, TAY, TXA, TYA and TSX are one transfer each (`actsAlone_of_transferTo`), and TXS is the bare copy of X
to SP from the prepared state (`actsAlone_of_implied`). -/
theorem transfers : Obligations.Transfers :=
  ⟨actsAlone_of_transferTo (r := .x) (v := State.a) rfl (fun _ => rfl) fun _ => rfl,
   actsAlone_of_transferTo (r := .y) (v := State.a) rfl (fun _ => rfl) fun _ => rfl,
   actsAlone_of_transferTo (r := .a) (v := State.x) rfl (fun _ => rfl) fun _ => rfl,
   actsAlone_of_transferTo (r := .a) (v := State.y) rfl (fun _ => rfl) fun _ => rfl,
   actsAlone_of_transferTo (r := .x) (v := State.sp) rfl (fun _ => rfl) fun _ => rfl,
   actsAlone_of_implied (op := opTxs) rfl (fun _ => rfl) fun _ => rfl⟩

end Sys2Proof.Machine
end

section
/-! INX, INY, DEX and DEY (42_arithmetic_logic.md R242–R245): a register step is a transfer of the stepped byte into its own
register, and adding `-1` is subtracting 1. -/

namespace Sys2Proof.Machine

/-- A register step transfers the register's byte, with the step added, into the same register (R242–R245). -/
theorem stepRegister_eq_transferTo (r : Reg) (by_ : Byte) :
    stepRegister r by_ = transferTo r fun s => readReg r s + by_ := rfl

/-- PC and the cycles do not enter the byte of a register. -/
@[simp] theorem readReg_prepared (r : Reg) (s : State) (n k : Nat) : readReg r (s.prepared n k) = readReg r s := by
  cases r <;> rfl

/-- An implied register step acts alone: the register moves by the step and N and Z follow (R242–R245). -/
theorem actsAlone_of_stepRegister {i : Instr} {opcode : Byte} {r : Reg} {by_ : Byte} (hencode : encode i = [opcode])
    (hexec : ∀ s, exec i s = runInstr 2 false 0 modeImp (stepRegister r by_) s) :
    ActsAlone i opcode fun s =>
      (writeReg r (readReg r s + by_) s).setFlags (nzFrom (readReg r s + by_) s.flags) := by
  rw [stepRegister_eq_transferTo] at hexec
  exact actsAlone_of_transferTo hencode hexec fun s => by rw [readReg_prepared]

/-- An implied register step by `-1` acts alone, the register one down (R244, R245). -/
theorem actsAlone_of_stepRegister_neg_one {i : Instr} {opcode : Byte} {r : Reg} (hencode : encode i = [opcode])
    (hexec : ∀ s, exec i s = runInstr 2 false 0 modeImp (stepRegister r (-1)) s) :
    ActsAlone i opcode fun s =>
      (writeReg r (readReg r s - 1) s).setFlags (nzFrom (readReg r s - 1) s.flags) := by
  simp only [BitVec.sub_eq_add_neg]
  exact actsAlone_of_stepRegister hencode hexec

/-- Settles O47: INX and INY step their register by 1 (`actsAlone_of_stepRegister`), DEX and DEY by `-1`
(`actsAlone_of_stepRegister_neg_one`). -/
theorem incrementAndDecrementRegisters : Obligations.IncrementAndDecrementRegisters :=
  ⟨actsAlone_of_stepRegister (r := .x) rfl fun _ => rfl,
   actsAlone_of_stepRegister (r := .y) rfl fun _ => rfl,
   actsAlone_of_stepRegister_neg_one (r := .x) rfl fun _ => rfl,
   actsAlone_of_stepRegister_neg_one (r := .y) rfl fun _ => rfl⟩

end Sys2Proof.Machine
end

section
/-! JSR and RTS (43_control_transfer.md R272, R273): each operation has a closed answer in every state, by the closed answers
of the 16-bit push and pull, and the instruction is that operation from the prepared state. -/

namespace Sys2Proof.Machine

/-- JSR pushes the address of its own last byte, the high byte above the low byte, and jumps; it never faults (R272, R322). -/
theorem opJsr_eq (pc0 ea : Word) (cross : Bool) (s : State) :
    opJsr pc0 ⟨.ram ea, cross⟩ s = .ok (((s.setRam ((s.ram.write (0x100 + s.sp.toNat) (highByte (pc0 + 2))).write
      (0x100 + (s.sp - 1).toNat) (lowByte (pc0 + 2)))).setSp (s.sp - 2)).setPc ea) := by
  simp only [opJsr, withTarget, push16_eq, ok_bind]

/-- RTS pulls the low byte, then the high byte, and goes one past that word; it never faults (R273, R322). -/
theorem opRts_eq (pc0 : Word) (m : Addressed) (s : State) :
    opRts pc0 m s = .ok ((s.setSp (s.sp + 2)).setPc
      (mkWord (s.ram.read (0x100 + (s.sp + 1).toNat)) (s.ram.read (0x100 + (s.sp + 2).toNat)) + 1)) := by
  simp only [opRts, pull16_eq, ok_bind]

/-- JSR in every state: its operation on the absolute address, from the prepared state (R272, R137). -/
theorem exec_jsr (addr : Word) (s : State) :
    exec (.jsr addr) s = .next
      { s with
        ram := (s.ram.write (0x100 + s.sp.toNat) (highByte (s.pc + 2))).write (0x100 + (s.sp - 1).toNat)
          (lowByte (s.pc + 2)),
        sp := s.sp - 2, pc := addr, stepCycles := 6 } := by
  have hrun : exec (.jsr addr) s = toOutcome (opJsr s.pc ⟨.ram addr, false⟩ (s.prepared 2 6)) :=
    runInstr_pure _ _ _ _ _ _ rfl
  rw [hrun, opJsr_eq]
  rfl

/-- RTS in every state: its operation from the prepared state (R273, R130). -/
theorem exec_rts (s : State) :
    exec .rts s = .next
      { s with
        sp := s.sp + 2,
        pc := mkWord (s.ram.read (0x100 + (s.sp + 1).toNat)) (s.ram.read (0x100 + (s.sp + 2).toNat)) + 1,
        stepCycles := 6 } := by
  have hrun : exec .rts s = toOutcome (opRts s.pc ⟨.nil, false⟩ (s.prepared 0 6)) := runInstr_implied _ _ _
  rw [hrun, opRts_eq]
  rfl

/-- One past a word, as the statements write it (R8, R273). -/
theorem mkWord_add_one_eq_ofNat (lo hi : Byte) :
    mkWord lo hi + 1 = BitVec.ofNat 16 (256 * hi.toNat + lo.toNat + 1) := by
  rw [mkWord_eq_ofNat]
  exact (BitVec.ofNat_add _ 1).symm

/-- Settles O50: the closed answers of both instructions (`exec_jsr`, `exec_rts`), the return address written as the sum of
its bytes (`mkWord_add_one_eq_ofNat`). -/
theorem callAndReturn : Obligations.CallAndReturn := by
  intro addr s
  refine ⟨rfl, rfl, exec_jsr addr s, ?_⟩
  rw [exec_rts, mkWord_add_one_eq_ofNat]

end Sys2Proof.Machine
end

section
/-! The flag instructions and NOP (44_flags_misc.md R300–R308): a change of the flags does not see PC or the cycles, so it
acts alone. -/

namespace Sys2Proof.Machine

/-- From the prepared state a change of the flags changes those of the state before PC and the cycles are set (R300). -/
theorem changeFlags_prepared (f : Flags → Flags) (pc0 : Word) (m : Addressed) (s : State) (n k : Nat) :
    changeFlags f pc0 m (s.prepared n k) = .ok ((s.setFlags (f s.flags)).prepared n k) := rfl

/-- An implied instruction of 2 cycles that changes the flags acts alone (R300). -/
theorem actsAlone_of_changeFlags {i : Instr} {opcode : Byte} {f : Flags → Flags} (hencode : encode i = [opcode])
    (hexec : ∀ s, exec i s = runInstr 2 false 0 modeImp (changeFlags f) s) :
    ActsAlone i opcode fun s => s.setFlags (f s.flags) := by
  refine actsAlone_of_implied hencode hexec fun s => ?_
  rw [changeFlags_prepared]
  rfl

/-- Settles O54: the seven flag instructions are one change of the flags each (`actsAlone_of_changeFlags`), and NOP answers the
prepared state itself (`actsAlone_of_implied`). -/
theorem flagInstructions : Obligations.FlagInstructions :=
  ⟨actsAlone_of_changeFlags (f := fun f => { f with c := false }) rfl fun _ => rfl,
   actsAlone_of_changeFlags (f := fun f => { f with c := true }) rfl fun _ => rfl,
   actsAlone_of_changeFlags (f := fun f => { f with i := false }) rfl fun _ => rfl,
   actsAlone_of_changeFlags (f := fun f => { f with i := true }) rfl fun _ => rfl,
   actsAlone_of_changeFlags (f := fun f => { f with d := false }) rfl fun _ => rfl,
   actsAlone_of_changeFlags (f := fun f => { f with d := true }) rfl fun _ => rfl,
   actsAlone_of_changeFlags (f := fun f => { f with v := false }) rfl fun _ => rfl,
   actsAlone_of_implied (op := opNop) rfl (fun _ => rfl) fun _ => rfl⟩

end Sys2Proof.Machine
end

section
/-! The decoder and the encoder (30_encoding.md R120–R126): each legal entry of the opcode table encodes back to the byte that
selects it, and the illegal bytes are those without an entry. -/

namespace Sys2Proof

/-- Every instruction an entry completes has `op` and its operand bytes as its encoding (R120, R122). -/
def Entry.EncodesTo (op : Byte) : Entry → Prop
  | .f1 i => encode i = [op]
  | .f2 mk => ∀ b1, encode (mk b1) = [op, b1]
  | .f3 mk => ∀ b1 b2, encode (mk (mkWord b1 b2)) = [op, b1, b2]

/-- What the table selects for a byte encodes back to that byte: row by row of the opcode map, digit by digit (R124). -/
theorem encodesTo_of_opcodeTable {op : Byte} {e : Entry} (h : opcodeTable op = some e) : e.EncodesTo op := by
  have hop : op = BitVec.ofNat 8 (16 * (op.toNat / 16) + op.toNat % 16) := by
    rw [Nat.div_add_mod, BitVec.ofNat_toNat, BitVec.setWidth_eq]
  have hrow : op.toNat / 16 < 16 := by have := op.isLt; omega
  have hdigit : op.toNat % 16 < 16 := Nat.mod_lt _ (by omega)
  rw [hop]
  simp only [opcodeTable] at h
  generalize op.toNat / 16 = row at h hrow
  generalize op.toNat % 16 = digit at h hdigit
  interval_cases row <;> interval_cases digit <;> cases h <;> simp [Entry.EncodesTo, encode, Instr.opcode, Instr.operandBytes]

/-- The decoder undoes the encoder, whatever follows (R120, R122). -/
theorem decode_encode_append (i : Instr) (rest : List Byte) : decode (encode i ++ rest) = .ok (i, rest) := by
  rcases Machine.opcodeTable_opcode i with ⟨he, ht⟩ | ⟨b1, mk, he, ht, hi⟩ | ⟨b1, b2, mk, he, ht, hi⟩
  · simp [he, decode, ht]
  · simp [he, decode, ht, hi]
  · simp [he, decode, ht, hi]

/-- Settles O7: the opcode byte of an instruction selects the entry that its operand bytes complete (`opcodeTable_opcode`). -/
theorem decodeEncode : Obligations.DecodeEncode := fun i rest _ => decode_encode_append i rest

/-- What the decoder accepts is the bytes of its answer and the rest (R120). -/
theorem eq_encode_append_of_decode {bytes rest : List Byte} {i : Instr} (h : decode bytes = .ok (i, rest)) :
    bytes = encode i ++ rest := by
  cases bytes with
  | nil => cases h
  | cons op tail =>
    simp only [decode] at h
    cases ht : opcodeTable op with
    | none => rw [ht] at h; cases h
    | some e =>
      have henc := encodesTo_of_opcodeTable ht
      rw [ht] at h
      cases e with
      | f1 j =>
        cases h
        rw [show encode i = [op] from henc, List.singleton_append]
      | f2 mk =>
        cases tail with
        | nil => cases h
        | cons b1 tail =>
          cases h
          rw [show encode (mk b1) = [op, b1] from henc b1]
          rfl
      | f3 mk =>
        match tail, h with
        | b1 :: b2 :: tail, h =>
          cases h
          rw [show encode (mk (mkWord b1 b2)) = [op, b1, b2] from henc b1 b2]
          rfl

/-- An instruction has 1, 2 or 3 bytes (R120). -/
theorem encode_length_bounds (i : Instr) : 1 ≤ (encode i).length ∧ (encode i).length ≤ 3 := by
  rcases Machine.opcodeTable_opcode i with ⟨he, -⟩ | ⟨b1, mk, he, -⟩ | ⟨b1, b2, mk, he, -⟩ <;> simp [he]

/-- Settles O8: an accepted byte's entry encodes back to it (`eq_encode_append_of_decode`), and no encoding is longer than
three bytes (`encode_length_bounds`). -/
theorem decodeAcceptsOnlyEncodings : Obligations.DecodeAcceptsOnlyEncodings := fun _ i _ h =>
  ⟨eq_encode_append_of_decode h, encode_length_bounds i⟩

/-- Settles O10: each word's entry of the opcode table, looked up. -/
theorem decodedWords : Obligations.DecodedWords := by
  refine ⟨rfl, rfl, rfl, rfl, rfl, rfl, rfl, rfl, rfl, rfl, rfl, rfl, rfl⟩

/-- The illegal bytes of the rule are those the opcode table has no entry for (R124, R125). -/
theorem mem_illegalOpcodes_iff (op : Byte) : op ∈ Machine.illegalOpcodes ↔ (opcodeTable op).isNone = true := by
  revert op
  decide +kernel

namespace Machine

/-- An interrupt that is not pending and a gate that does not break leave the step to the instruction at PC (R169). -/
theorem step_executes {s : State} (hgoes : s.goes = true) (hnmi : s.nmiLatch = false) (hirq : s.irqPending = false) :
    step s = complete Config.vblankDot (executeNext s.passGate) := by
  have hservice : serviceOrExecute s.passGate = executeNext s.passGate := by
    simp only [serviceOrExecute, show s.passGate.nmiLatch = false from hnmi,
      show (s.passGate.irqLine && !s.passGate.flags.i) = false from hirq, Bool.false_eq_true, if_false]
  rw [step_goes hgoes, hservice]

/-- A fetch faults after its first read where that read answers an illegal byte (R125). -/
theorem fetchInstr_illegal {op : Byte} {s t : State} (hop : opcodeTable op = none) (hr : memRead s.pc s = .ok (op, t)) :
    fetchInstr s = .error (.raised (.unknownOpcode s.pc op) t) := by
  simp only [fetchInstr, hr, ok_bind, hop]

/-- Every byte that is not illegal starts an instruction, whatever two bytes follow (R124). -/
theorem exists_decode_of_legal {op : Byte} (h : op ∉ illegalOpcodes) (b1 b2 : Byte) :
    ∃ i rest, decode [op, b1, b2] = .ok (i, rest) := by
  rw [mem_illegalOpcodes_iff] at h
  cases ht : opcodeTable op with
  | none => rw [ht] at h; exact absurd rfl h
  | some e =>
    simp only [decode, ht]
    cases e with
    | f1 i => exact ⟨_, _, rfl⟩
    | f2 mk => exact ⟨_, _, rfl⟩
    | f3 mk => exact ⟨_, _, rfl⟩

end Machine

open Machine in
/-- Settles O9: the listed bytes are exactly those without an entry (`mem_illegalOpcodes_iff`), and a fetch faults with its first
byte where that has none (`fetchInstr_illegal`). -/
theorem illegalOpcodes : Obligations.IllegalOpcodes := by
  refine ⟨rfl, fun op hop => ?_, fun op hop b1 b2 => exists_decode_of_legal hop b1 b2⟩
  have hnone : opcodeTable op = none := Option.isNone_iff_eq_none.mp ((mem_illegalOpcodes_iff op).mp hop)
  refine ⟨fun rest => by simp only [decode, hnone], fun s s1 hgoes hnmi hirq hr => ?_⟩
  obtain ⟨_, hread, rfl⟩ := busReads_passGate (bytes := [op]) ⟨s1, hr, rfl⟩
  rw [step_executes hgoes hnmi hirq, executeNext, fetchInstr_illegal hnone hread]
  rfl

namespace Machine

/-- Settles O11: the reads of the statement are those of the fetch, also behind the gate (`busReads_passGate`), so they fetch the
instruction (`fetchInstr_reads`) or fault as the fetch does (`fetchInstr_readFault`). -/
theorem stepRunsDecodedInstruction : Obligations.StepRunsDecodedInstruction := by
  intro s hgoes hnmi hirq
  refine ⟨fun i t _ hreads => ?_, fun i k t kind _ hk hreads hfault => ?_⟩
  · rw [step_executes hgoes hnmi hirq, executeNext, fetchInstr_reads (busReads_passGate hreads)]
    show complete Config.vblankDot (exec i t.passGate) = _
    cases exec i t.passGate <;> rfl
  · rw [step_executes hgoes hnmi hirq, executeNext,
      fetchInstr_readFault (t := t.passGate) hk (busReads_passGate hreads) hfault]
    rfl

end Machine

end Sys2Proof
end

section
/-! An instruction as its two parts (30_encoding.md R124; 40_step.md R162–R164): the way its row addresses and the operation
of its mnemonic. What is to be said of every instruction is said of the modes and of the operations. -/

namespace Sys2Proof.Machine

/-- The operation of a mnemonic (R164). -/
def operationOf : Mnemonic → Operation
  | .lda => opLda
  | .ldx => opLdx
  | .ldy => opLdy
  | .sta => opSta
  | .stx => opStx
  | .sty => opSty
  | .tax => opTax
  | .tay => opTay
  | .txa => opTxa
  | .tya => opTya
  | .tsx => opTsx
  | .txs => opTxs
  | .pha => opPha
  | .php => opPhp
  | .pla => opPla
  | .plp => opPlp
  | .adc => opAdc
  | .sbc => opSbc
  | .and => opAnd
  | .ora => opOra
  | .eor => opEor
  | .bit => opBit
  | .cmp => opCmp
  | .cpx => opCpx
  | .cpy => opCpy
  | .inc => opInc
  | .dec => opDec
  | .inx => opInx
  | .iny => opIny
  | .dex => opDex
  | .dey => opDey
  | .asl => opAsl
  | .lsr => opLsr
  | .rol => opRol
  | .ror => opRor
  | .jmp => opJmp
  | .jsr => opJsr
  | .rts => opRts
  | .rti => opRti
  | .brk => opBrk
  | .bcc => opBcc
  | .bcs => opBcs
  | .beq => opBeq
  | .bmi => opBmi
  | .bne => opBne
  | .bpl => opBpl
  | .bvc => opBvc
  | .bvs => opBvs
  | .clc => opClc
  | .sec => opSec
  | .cli => opCli
  | .sei => opSei
  | .cld => opCld
  | .sed => opSed
  | .clv => opClv
  | .nop => opNop

/-- The thirteen ways to address an operand, each with the operand bytes it starts from (R130–R142). -/
inductive Addressing where
  | imp
  | acc
  | imm (v : Byte)
  | zp (zp : Byte)
  | zpX (zp : Byte)
  | zpY (zp : Byte)
  | rel (off : Byte)
  | abs (addr : Word)
  | absX (addr : Word)
  | absY (addr : Word)
  | ind (addr : Word)
  | indX (zp : Byte)
  | indY (zp : Byte)

/-- The mode of a way to address (R130–R142). -/
def Addressing.mode : Addressing → Mode
  | .imp => modeImp
  | .acc => modeAcc
  | .imm v => modeImm v
  | .zp b1 => modeZp b1
  | .zpX b1 => modeZpX b1
  | .zpY b1 => modeZpY b1
  | .rel off => modeRel off
  | .abs addr => modeAbs addr
  | .absX addr => modeAbsX addr
  | .absY addr => modeAbsY addr
  | .ind addr => modeInd addr
  | .indX b1 => modeIndX b1
  | .indY b1 => modeIndY b1

/-- The addressing mode of an instruction's row, on its operand (R124). -/
def addressingOf : Instr → Addressing
  | .ldaImm v | .ldxImm v | .ldyImm v | .adcImm v | .sbcImm v | .andImm v | .oraImm v | .eorImm v | .cmpImm v |
    .cpxImm v | .cpyImm v => .imm v
  | .ldaZp zp | .ldxZp zp | .ldyZp zp | .staZp zp | .stxZp zp | .styZp zp | .adcZp zp | .sbcZp zp | .andZp zp |
    .oraZp zp | .eorZp zp | .bitZp zp | .cmpZp zp | .cpxZp zp | .cpyZp zp | .incZp zp | .decZp zp | .aslZp zp | .lsrZp zp
    | .rolZp zp | .rorZp zp => .zp zp
  | .ldaZpX zp | .ldyZpX zp | .staZpX zp | .styZpX zp | .adcZpX zp | .sbcZpX zp | .andZpX zp | .oraZpX zp | .eorZpX zp |
    .cmpZpX zp | .incZpX zp | .decZpX zp | .aslZpX zp | .lsrZpX zp | .rolZpX zp | .rorZpX zp => .zpX zp
  | .ldaAbs addr | .ldxAbs addr | .ldyAbs addr | .staAbs addr | .stxAbs addr | .styAbs addr | .adcAbs addr |
    .sbcAbs addr | .andAbs addr | .oraAbs addr | .eorAbs addr | .bitAbs addr | .cmpAbs addr | .cpxAbs addr | .cpyAbs addr
    | .incAbs addr | .decAbs addr | .aslAbs addr | .lsrAbs addr | .rolAbs addr | .rorAbs addr | .jmpAbs addr | .jsr addr
    => .abs addr
  | .ldaAbsX addr | .ldyAbsX addr | .staAbsX addr | .adcAbsX addr | .sbcAbsX addr | .andAbsX addr | .oraAbsX addr |
    .eorAbsX addr | .cmpAbsX addr | .incAbsX addr | .decAbsX addr | .aslAbsX addr | .lsrAbsX addr | .rolAbsX addr |
    .rorAbsX addr => .absX addr
  | .ldaAbsY addr | .ldxAbsY addr | .staAbsY addr | .adcAbsY addr | .sbcAbsY addr | .andAbsY addr | .oraAbsY addr |
    .eorAbsY addr | .cmpAbsY addr => .absY addr
  | .ldaIndX zp | .staIndX zp | .adcIndX zp | .sbcIndX zp | .andIndX zp | .oraIndX zp | .eorIndX zp | .cmpIndX zp =>
    .indX zp
  | .ldaIndY zp | .staIndY zp | .adcIndY zp | .sbcIndY zp | .andIndY zp | .oraIndY zp | .eorIndY zp | .cmpIndY zp =>
    .indY zp
  | .ldxZpY zp | .stxZpY zp => .zpY zp
  | .aslAcc | .lsrAcc | .rolAcc | .rorAcc => .acc
  | .jmpInd addr => .ind addr
  | .bcc off | .bcs off | .beq off | .bmi off | .bne off | .bpl off | .bvc off | .bvs off => .rel off
  | _ => .imp

/-- The stores (R204–R206). -/
def Mnemonic.isStore (m : Mnemonic) : Bool := decide (m ∈ [.sta, .stx, .sty])

/-- The instructions that read an operand and write it back (R165). -/
def Mnemonic.isModify (m : Mnemonic) : Bool := decide (m ∈ [.inc, .dec, .asl, .lsr, .rol, .ror])

/-- The instructions that push (R28). -/
def Mnemonic.isPush (m : Mnemonic) : Bool := decide (m ∈ [.pha, .php, .jsr, .brk])

/-- Every instruction is its mnemonic's operation behind its row's mode, with base cycles of 2 to 7, at most 6 for a store, and
a page mark on no row of more than 5 (R124, R162–R166). -/
theorem exec_eq_runInstr (i : Instr) : ∃ base marked n,
    (∀ s, exec i s = runInstr base marked n (addressingOf i).mode (operationOf (mnemonicOf i)) s) ∧
      2 ≤ base ∧ base ≤ 7 ∧ (marked = true → base ≤ 5) ∧ ((mnemonicOf i).isStore = true → base ≤ 6) := by
  cases i <;> exact ⟨_, _, _, fun _ => rfl, by simp [mnemonicOf, Mnemonic.isStore]⟩

/-- But for JMP's indirect form, whose pointer is read through the bus, a mode answers at once and changes nothing (R322). -/
theorem Addressing.still (m : Addressing) : (∃ addr, m = .ind addr) ∨ ∀ s, ∃ a, m.mode s = .ok (a, s) := by
  cases m with
  | ind addr => exact .inl ⟨addr, rfl⟩
  | indX b1 => exact .inr fun s => ⟨_, modeIndX_eq b1 s⟩
  | indY b1 => exact .inr fun s => ⟨_, modeIndY_eq b1 s⟩
  | _ => exact .inr fun s => ⟨_, rfl⟩

end Sys2Proof.Machine
end

section
/-! Two runs side by side (10_state.md R32, R33; 60_exceptions.md R355): states that differ only in what a view leaves out (the
stored B, D, the gate) stay so under every part of an instruction, and end in the same way. -/

namespace Sys2Proof.Machine

/-- Which of the stored B, D and the gate two runs have to agree in. -/
structure View where
  b : Bool
  d : Bool
  gate : Bool

namespace View

variable (v : View)

/-- Flags that differ at most in what the view leaves out. -/
def AlikeFlags (f g : Flags) : Prop :=
  ∃ b d, g = { f with b := b, d := d } ∧ (v.b = true → b = f.b) ∧ (v.d = true → d = f.d)

/-- States that differ at most in what the view leaves out. -/
def Alike (s t : State) : Prop :=
  ∃ flags gate, t = { s with flags := flags, gate := gate } ∧ v.AlikeFlags s.flags flags ∧ (v.gate = true → gate = s.gate)

/-- The same value and alike states. -/
def AlikePair {α : Type} (a b : α × State) : Prop := b.1 = a.1 ∧ v.Alike a.2 b.2

/-- Results that end in the same way: with answers that `ρ` relates, or with one fault and alike states. -/
def Results {α : Type} (ρ : α → α → Prop) : Result α → Result α → Prop
  | .ok a, .ok b => ρ a b
  | .error (.raised kind s), .error (.raised kind' t) => kind' = kind ∧ v.Alike s t
  | _, _ => False

/-- Outcomes that end in the same way; the end of a run stands on alike states (R320). -/
def Outcomes : Host.Outcome State Fault Refusal → Host.Outcome State Fault Refusal → Prop
  | .next s, .next t => v.Alike s t
  | .fault (.raised kind s), .fault (.raised kind' t) =>
    kind' = kind ∧ ∃ s0 t0, v.Alike s0 t0 ∧ s = enterFaulted kind s0 ∧ t = enterFaulted kind t0
  | .refused r, .refused r' => r' = r
  | _, _ => False

/-- A mode that does not look at what the view leaves out. -/
def Modes (mode : Mode) : Prop := ∀ {s t}, v.Alike s t → v.Results v.AlikePair (mode s) (mode t)

/-- An operation that does not look at what the view leaves out. -/
def Operations (op : Operation) : Prop := ∀ pc0 m {s t}, v.Alike s t → v.Results v.Alike (op pc0 m s) (op pc0 m t)

variable {v}

/-! Results and outcomes -/

theorem results_bind {α β : Type} {ρ : α → α → Prop} {σ : β → β → Prop} {x y : Result α} {f g : α → Result β}
    (h : v.Results ρ x y) (hf : ∀ a b, ρ a b → v.Results σ (f a) (g b)) : v.Results σ (x >>= f) (y >>= g) := by
  rcases x with ⟨kind, s⟩ | a <;> rcases y with ⟨kind', t⟩ | b
  · exact h
  · exact h.elim
  · exact h.elim
  · exact hf a b h

/-- The case of an answer that is a value and a state: the two runs go on with one value. -/
theorem results_bindPair {α β : Type} {σ : β → β → Prop} {x y : Result (α × State)} {f g : α × State → Result β}
    (h : v.Results v.AlikePair x y) (hf : ∀ a s t, v.Alike s t → v.Results σ (f (a, s)) (g (a, t))) :
    v.Results σ (x >>= f) (y >>= g) :=
  results_bind h fun a b hab => by
    obtain ⟨b1, b2⟩ := b
    obtain ⟨rfl, hst⟩ := hab
    exact hf a.1 a.2 b2 hst

theorem outcomes_toOutcome {x y : Result State} (h : v.Results v.Alike x y) : v.Outcomes (toOutcome x) (toOutcome y) := by
  rcases x with ⟨kind, s⟩ | a <;> rcases y with ⟨kind', t⟩ | b
  · exact ⟨h.1, s, t, h.2, rfl, by rw [h.1]⟩
  · exact h.elim
  · exact h.elim
  · exact h

/-! Flags -/

theorem alikeFlags_setNZ (r : Byte) {f g : Flags} (h : v.AlikeFlags f g) : v.AlikeFlags (setNZ r f) (setNZ r g) := by
  obtain ⟨b, d, rfl, hb, hd⟩ := h
  exact ⟨b, d, rfl, hb, hd⟩

theorem alikeFlags_setP (p : Byte) : v.AlikeFlags (setP p) (setP p) := ⟨_, _, rfl, fun _ => rfl, fun _ => rfl⟩

/-- The pushed byte of PHP and BRK has bit 4 set, so it does not show the stored B (R214, R275). -/
theorem getP_or_of_alikeFlags (hv : v.d = true) {f g : Flags} (h : v.AlikeFlags f g) : getP g ||| 0x30 = getP f ||| 0x30 := by
  obtain ⟨b, d, rfl, -, hd⟩ := h
  rw [hd hv]
  obtain ⟨n, v, b', d, i, z, c⟩ := f
  clear hd
  revert n v b' b d i z c
  decide

/-- The pushed byte of an interrupt entry has bit 4 clear, so it does not show the stored B (R336). -/
theorem getP_and_of_alikeFlags (hv : v.d = true) {f g : Flags} (h : v.AlikeFlags f g) :
    (getP g &&& 0xEF) ||| 0x20 = (getP f &&& 0xEF) ||| 0x20 := by
  obtain ⟨b, d, rfl, -, hd⟩ := h
  rw [hd hv]
  obtain ⟨n, v, b', d, i, z, c⟩ := f
  clear hd
  revert n v b' b d i z c
  decide

/-! States -/

theorem Alike.refl (s : State) : v.Alike s s :=
  ⟨s.flags, s.gate, rfl, ⟨s.flags.b, s.flags.d, rfl, fun _ => rfl, fun _ => rfl⟩, fun _ => rfl⟩

section
variable {s t : State} (h : v.Alike s t)
include h

theorem Alike.flags : v.AlikeFlags s.flags t.flags := by
  obtain ⟨f, g, rfl, hf, -⟩ := h
  exact hf

theorem Alike.setFlags {f g : Flags} (hf : v.AlikeFlags f g) : v.Alike (s.setFlags f) (t.setFlags g) := by
  obtain ⟨_, gate, rfl, -, hg⟩ := h
  exact ⟨g, gate, rfl, hf, hg⟩

theorem Alike.writeReg (r : Reg) (b : Byte) : v.Alike (Machine.writeReg r b s) (Machine.writeReg r b t) := by
  obtain ⟨f, gate, rfl, hf, hg⟩ := h
  cases r <;> exact ⟨f, gate, rfl, hf, hg⟩

theorem Alike.readReg (r : Reg) : Machine.readReg r t = Machine.readReg r s := by
  obtain ⟨f, gate, rfl, -, -⟩ := h
  cases r <;> rfl

theorem Alike.setSp (b : Byte) : v.Alike (s.setSp b) (t.setSp b) := by
  obtain ⟨f, gate, rfl, hf, hg⟩ := h
  exact ⟨f, gate, rfl, hf, hg⟩

theorem Alike.setPc (pc : Word) : v.Alike (s.setPc pc) (t.setPc pc) := by
  obtain ⟨f, gate, rfl, hf, hg⟩ := h
  exact ⟨f, gate, rfl, hf, hg⟩

theorem Alike.setStepCycles (k : Nat) : v.Alike (s.setStepCycles k) (t.setStepCycles k) := by
  obtain ⟨f, gate, rfl, hf, hg⟩ := h
  exact ⟨f, gate, rfl, hf, hg⟩

theorem Alike.addCycles (k : Nat) : v.Alike (Machine.addCycles k s) (Machine.addCycles k t) := by
  obtain ⟨f, gate, rfl, hf, hg⟩ := h
  exact ⟨f, gate, rfl, hf, hg⟩

theorem Alike.setNmiLatch (l : Bool) : v.Alike (s.setNmiLatch l) (t.setNmiLatch l) := by
  obtain ⟨f, gate, rfl, hf, hg⟩ := h
  exact ⟨f, gate, rfl, hf, hg⟩

theorem Alike.pc : t.pc = s.pc := by obtain ⟨_, _, rfl, -, -⟩ := h; rfl

theorem Alike.a : t.a = s.a := h.readReg .a

theorem Alike.x : t.x = s.x := h.readReg .x

theorem Alike.y : t.y = s.y := h.readReg .y

theorem Alike.sp : t.sp = s.sp := by obtain ⟨_, _, rfl, -, -⟩ := h; rfl

/-- What has the same devices stays alike where the core's registers come from alike states. -/
theorem Alike.withCore (u : State) : v.Alike (u.withCore s) (u.withCore t) := by
  obtain ⟨f, gate, rfl, hf, hg⟩ := h
  exact ⟨f, gate, rfl, hf, hg⟩

theorem Alike.eq_withCore : t = s.withCore t := by
  obtain ⟨f, gate, rfl, -, -⟩ := h
  rfl

/-! The bus -/

/-- A read does not look at the flags and the gate (R60). -/
theorem Alike.reads (addr : Word) : v.Results v.AlikePair (memRead addr s) (memRead addr t) := by
  rw [h.eq_withCore, memRead_withCore]
  cases hr : memRead addr s with
  | ok r =>
    refine ⟨rfl, ?_⟩
    rw [(memRead_core_kept hr).1]
    exact h.withCore r.2
  | error e =>
    obtain ⟨kind, u⟩ := e
    obtain ⟨rfl, -⟩ := memRead_error hr
    exact ⟨rfl, h.withCore u⟩

/-- A write does not look at the flags and the gate (R61). -/
theorem Alike.writes (addr : Word) (b : Byte) : v.Results v.AlikePair (memWrite addr b s) (memWrite addr b t) := by
  have hodd : t.odd = s.odd := by obtain ⟨_, _, rfl, -, -⟩ := h; rfl
  rw [h.eq_withCore, memWrite_withCore addr b s t hodd]
  cases hw : memWrite addr b s with
  | ok r =>
    refine ⟨rfl, ?_⟩
    rw [(memWrite_core_kept hw).1]
    exact h.withCore r.2
  | error e =>
    obtain ⟨kind, u⟩ := e
    refine ⟨rfl, ?_⟩
    rw [memWrite_error_core hw]
    exact h.withCore u

/-! Operands, the stack and exceptions -/

theorem Alike.operandReads (pc0 : Word) (o : Operand) : v.Results v.AlikePair (readOperand pc0 o s) (readOperand pc0 o t) := by
  cases o with
  | ram ea => exact h.reads ea
  | reg r => exact ⟨h.readReg r, h⟩
  | const k => exact ⟨rfl, h⟩
  | nil => exact ⟨rfl, h⟩

theorem Alike.operandWrites (pc0 : Word) (o : Operand) (b : Byte) :
    v.Results v.Alike (writeOperand pc0 o b s) (writeOperand pc0 o b t) := by
  cases o with
  | ram ea => exact results_bindPair (h.writes ea b) fun k _ _ hu => hu.addCycles k
  | reg r => exact h.writeReg r b
  | const k => exact ⟨rfl, h⟩
  | nil => exact ⟨rfl, h⟩

theorem Alike.pushes (b : Byte) : v.Results v.Alike (push b s) (push b t) := by
  obtain ⟨f, gate, rfl, hf, hg⟩ := h
  simp only [push_eq]
  exact ⟨f, gate, rfl, hf, hg⟩

theorem Alike.pushes16 (w : Word) : v.Results v.Alike (push16 w s) (push16 w t) := by
  obtain ⟨f, gate, rfl, hf, hg⟩ := h
  simp only [push16_eq]
  exact ⟨f, gate, rfl, hf, hg⟩

theorem Alike.pulls : v.Results v.AlikePair (pull s) (pull t) := by
  obtain ⟨f, gate, rfl, hf, hg⟩ := h
  simp only [pull_eq]
  exact ⟨rfl, f, gate, rfl, hf, hg⟩

theorem Alike.pulls16 : v.Results v.AlikePair (pull16 s) (pull16 t) := by
  obtain ⟨f, gate, rfl, hf, hg⟩ := h
  simp only [pull16_eq]
  exact ⟨rfl, f, gate, rfl, hf, hg⟩

theorem Alike.jumps (vec : Word) : v.Results v.Alike (jumpThrough vec s) (jumpThrough vec t) :=
  results_bindPair (h.reads vec) fun _ _ _ h1 => results_bindPair (h1.reads (vec + 1)) fun _ _ _ h2 => h2.setPc _

theorem Alike.setI : v.Alike (s.setFlags { s.flags with i := true }) (t.setFlags { t.flags with i := true }) := by
  obtain ⟨b, d, hf, hb, hd⟩ := h.flags
  exact h.setFlags ⟨b, d, by rw [hf], hb, hd⟩

theorem Alike.excepts (returnPc : Word) (status : Byte) (vec : Word) :
    v.Results v.Alike (takeException returnPc status vec s) (takeException returnPc status vec t) :=
  results_bind (h.pushes16 returnPc) fun _ _ h1 => results_bind (h1.pushes status) fun _ _ h2 => h2.setI.jumps vec

/-- An interrupt entry does not look at the stored B, nor at the gate (R336). -/
theorem Alike.enters (hv : v.d = true) (vec : Word) : v.Results v.Alike (interruptEntry vec s) (interruptEntry vec t) := by
  simp only [interruptEntry, h.pc, getP_and_of_alikeFlags hv h.flags]
  exact (h.setStepCycles 7).excepts _ _ _

end

end View

end Sys2Proof.Machine
end

section
/-! Two runs side by side, for the operations, the modes and so for every instruction (40_step.md R162–R166). -/

namespace Sys2Proof.Machine.View

variable {v : View}

/-! Operations -/

/-- What reads its operand and changes the core's registers by something that alike states do alike. -/
theorem operations_reading {op : Operation} (f : Byte → State → State)
    (hf : ∀ b {s t}, v.Alike s t → v.Alike (f b s) (f b t))
    (hop : ∀ pc0 m s, op pc0 m s = (readOperand pc0 m.opnd s >>= fun r => .ok (f r.1 r.2))) : v.Operations op := by
  intro pc0 m s t h
  rw [hop, hop]
  exact results_bindPair (h.operandReads pc0 m.opnd) fun b _ _ h => hf b h

/-- What only changes the core's registers, and alike states alike. -/
theorem operations_pure {op : Operation} (f : State → State) (hf : ∀ {s t}, v.Alike s t → v.Alike (f s) (f t))
    (hop : ∀ pc0 m s, op pc0 m s = .ok (f s)) : v.Operations op := by
  intro pc0 m s t h
  rw [hop, hop]
  exact hf h

theorem operations_load (r : Reg) : v.Operations (loadRegister r) :=
  operations_reading (fun b s => (Machine.writeReg r b s).setFlags (setNZ b s.flags))
    (fun b _ _ h => (h.writeReg r b).setFlags (alikeFlags_setNZ b h.flags)) fun _ _ _ => rfl

theorem operations_transfer (r : Reg) {w : State → Byte} (hw : ∀ {s t}, v.Alike s t → w t = w s) :
    v.Operations (transferTo r w) :=
  operations_pure (fun s => (Machine.writeReg r (w s) s).setFlags (setNZ (w s) s.flags))
    (fun h => by rw [hw h]; exact (h.writeReg r _).setFlags (alikeFlags_setNZ _ h.flags)) fun _ _ _ => rfl

theorem operations_stepRegister (r : Reg) (by_ : Byte) : v.Operations (stepRegister r by_) :=
  operations_transfer r fun h => by rw [h.readReg]

theorem operations_store {w : State → Byte} (hw : ∀ {s t}, v.Alike s t → w t = w s) :
    v.Operations fun pc0 m s => writeOperand pc0 m.opnd (w s) s := by
  intro pc0 m s t h
  simp only [hw h]
  exact h.operandWrites pc0 m.opnd _

/-- Alike flags give the same byte and alike flags. -/
def KeepsFlags (v : View) (f : Byte → Flags → Byte × Flags) : Prop :=
  ∀ m {p q}, v.AlikeFlags p q → (f m q).1 = (f m p).1 ∧ v.AlikeFlags (f m p).2 (f m q).2

theorem operations_accumulate {f : Byte → Byte → Flags → Byte × Flags} (hf : ∀ a, v.KeepsFlags (f a)) :
    v.Operations (accumulate f) :=
  operations_reading (fun b s => (s.setA (f s.a b s.flags).1).setFlags (f s.a b s.flags).2)
    (fun b s t h => by
      obtain ⟨h1, h2⟩ := hf s.a b h.flags
      rw [show t.a = s.a from h.readReg .a, h1]
      exact (h.writeReg .a _).setFlags h2)
    fun _ _ _ => rfl

/-- What carries B and D through and does not look at them. -/
theorem alikeFlags_carried {f : Flags → Flags} (hf : ∀ p b d, f { p with b := b, d := d } = { f p with b := b, d := d })
    {p q : Flags} (h : v.AlikeFlags p q) : v.AlikeFlags (f p) (f q) := by
  obtain ⟨b, d, rfl, hb, hd⟩ := h
  have hself : f p = { f p with b := p.b, d := p.d } := hf p p.b p.d
  refine ⟨b, d, hf p b d, fun h => ?_, fun h => ?_⟩
  · rw [hself]; exact hb h
  · rw [hself]; exact hd h

theorem keepsFlags_carried {f : Byte → Flags → Byte × Flags}
    (hf : ∀ m p b d, f m { p with b := b, d := d } = ((f m p).1, { (f m p).2 with b := b, d := d })) : v.KeepsFlags f := by
  refine fun m p q h => ⟨?_, alikeFlags_carried (f := fun p => (f m p).2) (fun p b d => by rw [hf]) h⟩
  obtain ⟨b, d, rfl, -, -⟩ := h
  rw [hf]

theorem operations_logic (f : Byte → Byte → Byte) : v.Operations (logic f) :=
  operations_accumulate fun _ _ _ _ h => ⟨rfl, alikeFlags_setNZ _ h⟩

theorem operations_test (f : Byte → State → Flags) (hf : ∀ b {s t}, v.Alike s t → v.AlikeFlags (f b s) (f b t)) :
    v.Operations (testOperand f) :=
  operations_reading (fun b s => s.setFlags (f b s)) (fun b _ _ h => h.setFlags (hf b h)) fun _ _ _ => rfl

theorem operations_bit : v.Operations opBit :=
  operations_test (fun m s => bitFlags s.a m s.flags) fun m s t h => by
    rw [h.a]
    exact alikeFlags_carried (fun _ _ _ => rfl) h.flags

theorem operations_compare {w : State → Byte} (hw : ∀ {s t}, v.Alike s t → w t = w s) :
    v.Operations (testOperand fun m s => compareFlags (w s) m s.flags) :=
  operations_test (fun m s => compareFlags (w s) m s.flags) fun m s t h => by
    rw [hw h]
    exact alikeFlags_carried (fun _ _ _ => rfl) h.flags

theorem results_checkRmw (o : Operand) {s t : State} (h : v.Alike s t) :
    v.Results (fun _ _ => True) (checkRmw o s) (checkRmw o t) := by
  cases o with
  | ram ea =>
    have hcart : t.cart = s.cart := by obtain ⟨_, _, rfl, -, -⟩ := h; rfl
    simp only [checkRmw, hcart]
    split
    · exact ⟨rfl, h⟩
    · trivial
  | reg r => trivial
  | const k => trivial
  | nil => trivial

theorem operations_modify {f : Byte → Flags → Byte × Flags} (hf : v.KeepsFlags f) : v.Operations (readModifyWrite f) := by
  intro pc0 m s t h
  refine results_bind (results_checkRmw m.opnd h) fun _ _ _ =>
    results_bindPair (h.operandReads pc0 m.opnd) fun b s1 t1 h1 => ?_
  obtain ⟨hr, hflags⟩ := hf b h1.flags
  simp only [hr]
  exact results_bind ((h1.setFlags hflags).operandWrites pc0 m.opnd _) fun _ _ hw =>
    hw.setFlags (alikeFlags_setNZ _ hw.flags)

/-- A flag instruction on a flag other than B and D (R300). -/
theorem operations_changeFlags (f : Flags → Flags) (hf : ∀ p b d, f { p with b := b, d := d } = { f p with b := b, d := d }) :
    v.Operations (changeFlags f) :=
  operations_pure (fun s => s.setFlags (f s.flags)) (fun h => h.setFlags (alikeFlags_carried hf h.flags)) fun _ _ _ => rfl

/-- CLD and SED leave D the same in both runs (R305, R306). -/
theorem operations_changeD (d0 : Bool) : v.Operations (changeFlags fun f => { f with d := d0 }) :=
  operations_pure (fun s => s.setFlags { s.flags with d := d0 })
    (fun h => h.setFlags (by obtain ⟨b, d, hf, hb, -⟩ := h.flags; exact ⟨b, d0, by rw [hf], hb, fun _ => rfl⟩)) fun _ _ _ => rfl

theorem operations_target {f : Word → State → Result State} (hf : ∀ ea {s t}, v.Alike s t → v.Results v.Alike (f ea s) (f ea t)) :
    v.Operations (withTarget f) := by
  intro pc0 m s t h
  simp only [withTarget]
  split
  · exact hf _ h
  · exact ⟨rfl, h⟩

/-- A branch looks at N, V, Z or C alone (R270). -/
theorem operations_branch {cond : State → Bool} (hc : ∀ {s t}, v.Alike s t → cond t = cond s) : v.Operations (branch cond) := by
  intro pc0 m s t h
  simp only [branch, hc h]
  split
  · exact operations_target (f := fun ea s => .ok ((Machine.addCycles (if m.cross then 2 else 1) s).setPc ea))
      (fun ea _ _ h => (h.addCycles _).setPc ea) pc0 m h
  · exact h

theorem operations_pha : v.Operations opPha := fun _ _ _ _ h => by
  simp only [opPha, h.a]
  exact h.pushes _

theorem operations_pla : v.Operations opPla := fun _ _ _ _ h =>
  results_bindPair h.pulls fun b _ _ h => (h.writeReg .a b).setFlags (alikeFlags_setNZ _ h.flags)

theorem operations_plp : v.Operations opPlp := fun _ _ _ _ h =>
  results_bindPair h.pulls fun p _ _ h => h.setFlags (alikeFlags_setP p)

theorem operations_jsr : v.Operations opJsr := fun pc0 m _ _ h =>
  operations_target (f := fun ea s => do .ok ((← push16 (pc0 + 2) s).setPc ea))
    (fun ea _ _ h => results_bind (h.pushes16 _) fun _ _ hp => hp.setPc ea) pc0 m h

theorem operations_rts : v.Operations opRts := fun _ _ _ _ h => results_bindPair h.pulls16 fun _ _ _ h => h.setPc _

theorem operations_rti : v.Operations opRti := fun _ _ _ _ h =>
  results_bindPair h.pulls fun p _ _ h =>
    results_bindPair (h.setFlags (alikeFlags_setP p)).pulls16 fun _ _ _ h => h.setPc _

theorem operations_php (hd : v.d = true) : v.Operations opPhp := fun _ _ _ _ h => by
  simp only [opPhp, getP_or_of_alikeFlags hd h.flags]
  exact h.pushes _

theorem operations_brk (hd : v.d = true) : v.Operations opBrk := fun _ _ _ _ h => by
  simp only [opBrk, getP_or_of_alikeFlags hd h.flags]
  exact h.excepts _ _ _

/-- Every operation treats alike states alike, but that PHP and BRK push D (R32, R33). -/
theorem operations_operationOf (m : Mnemonic) (hm : m = .php ∨ m = .brk → v.d = true) : v.Operations (operationOf m) := by
  cases m with
  | lda | ldx | ldy => exact operations_load _
  | sta => exact operations_store Alike.a
  | stx => exact operations_store Alike.x
  | sty => exact operations_store Alike.y
  | tax | tay => exact operations_transfer _ Alike.a
  | txa => exact operations_transfer _ Alike.x
  | tya => exact operations_transfer _ Alike.y
  | tsx => exact operations_transfer _ Alike.sp
  | txs => exact operations_pure (fun s => s.setSp s.x) (fun h => by rw [h.x]; exact h.setSp _) fun _ _ _ => rfl
  | pha => exact operations_pha
  | php => exact operations_php (hm (.inl rfl))
  | pla => exact operations_pla
  | plp => exact operations_plp
  | adc => exact operations_accumulate (f := adc) fun _ => keepsFlags_carried fun _ _ _ _ => rfl
  | sbc => exact operations_accumulate (f := sbc) fun _ => keepsFlags_carried fun _ _ _ _ => rfl
  | and | ora | eor => exact operations_logic _
  | bit => exact operations_bit
  | cmp => exact operations_compare Alike.a
  | cpx => exact operations_compare Alike.x
  | cpy => exact operations_compare Alike.y
  | inc => exact operations_modify (f := inc) (keepsFlags_carried fun _ _ _ _ => rfl)
  | dec => exact operations_modify (f := dec) (keepsFlags_carried fun _ _ _ _ => rfl)
  | inx | iny | dex | dey => exact operations_stepRegister _ _
  | asl => exact operations_modify (f := asl) (keepsFlags_carried fun _ _ _ _ => rfl)
  | lsr => exact operations_modify (f := lsr) (keepsFlags_carried fun _ _ _ _ => rfl)
  | rol => exact operations_modify (f := rol) (keepsFlags_carried fun _ _ _ _ => rfl)
  | ror => exact operations_modify (f := ror) (keepsFlags_carried fun _ _ _ _ => rfl)
  | jmp => exact operations_target fun ea _ _ h => h.setPc ea
  | jsr => exact operations_jsr
  | rts => exact operations_rts
  | rti => exact operations_rti
  | brk => exact operations_brk (hm (.inr rfl))
  | bcc | bcs | beq | bmi | bne | bpl | bvc | bvs =>
    exact operations_branch fun h => by obtain ⟨_, _, rfl, ⟨_, _, rfl, -, -⟩, -⟩ := h; rfl
  | clc => exact operations_changeFlags (fun f => { f with c := false }) fun _ _ _ => rfl
  | sec => exact operations_changeFlags (fun f => { f with c := true }) fun _ _ _ => rfl
  | cli => exact operations_changeFlags (fun f => { f with i := false }) fun _ _ _ => rfl
  | sei => exact operations_changeFlags (fun f => { f with i := true }) fun _ _ _ => rfl
  | clv => exact operations_changeFlags (fun f => { f with v := false }) fun _ _ _ => rfl
  | cld | sed => exact operations_changeD _
  | nop => exact operations_pure id (fun h => h) fun _ _ _ => rfl

/-! Modes, instructions and the fetch -/

theorem modes_mode (m : Addressing) : v.Modes m.mode := by
  intro s t h
  cases m with
  | ind addr =>
    exact results_bindPair (h.reads addr) fun _ _ _ h => results_bindPair (h.reads (samePageNext addr)) fun _ _ _ h => ⟨rfl, h⟩
  | indX b1 =>
    obtain ⟨f, gate, rfl, hf, hg⟩ := h
    simp only [Addressing.mode, modeIndX_eq]
    exact ⟨rfl, f, gate, rfl, hf, hg⟩
  | indY b1 =>
    obtain ⟨f, gate, rfl, hf, hg⟩ := h
    simp only [Addressing.mode, modeIndY_eq]
    exact ⟨rfl, f, gate, rfl, hf, hg⟩
  | _ =>
    obtain ⟨f, gate, rfl, hf, hg⟩ := h
    exact ⟨rfl, f, gate, rfl, hf, hg⟩

/-- Every instruction ends in the same way from alike states, but that PHP and BRK push D. -/
theorem outcomes_exec {i : Instr} {s t : State} (hi : i = .php ∨ i = .brk → v.d = true) (h : v.Alike s t) :
    v.Outcomes (exec i s) (exec i t) := by
  obtain ⟨base, marked, n, hrun, -⟩ := exec_eq_runInstr i
  have hm : mnemonicOf i = .php ∨ mnemonicOf i = .brk → v.d = true := by
    intro hpb
    cases i <;> first | exact hi (.inl rfl) | exact hi (.inr rfl) | simp [mnemonicOf] at hpb
  rw [hrun, hrun, runInstr, runInstr, h.pc]
  refine outcomes_toOutcome (results_bindPair (modes_mode _ ((h.setPc _).setStepCycles base)) fun a _ _ h => ?_)
  refine operations_operationOf _ hm _ a ?_
  split
  · exact h.addCycles 1
  · exact h

/-- The fetch does not look at the flags and the gate (R161). -/
theorem results_fetchInstr {s t : State} (h : v.Alike s t) : v.Results v.AlikePair (fetchInstr s) (fetchInstr t) := by
  simp only [fetchInstr, h.pc]
  refine results_bindPair (h.reads s.pc) fun op _ _ h1 => ?_
  dsimp only
  split
  · exact ⟨rfl, h1⟩
  · exact ⟨rfl, h1⟩
  · exact results_bindPair (h1.reads (s.pc + 1)) fun _ _ _ h2 => ⟨rfl, h2⟩
  · exact results_bindPair (h1.reads (s.pc + 1)) fun _ _ _ h2 =>
      results_bindPair (h2.reads (s.pc + 2)) fun _ _ _ h3 => ⟨rfl, h3⟩

/-- The operation of a step ends in the same way from alike states, where the view keeps D (R169). -/
theorem outcomes_serviceOrExecute (hd : v.d = true) {s t : State} (h : v.Alike s t) :
    v.Outcomes (serviceOrExecute s) (serviceOrExecute t) := by
  have hlatch : t.nmiLatch = s.nmiLatch := by obtain ⟨_, _, rfl, -, -⟩ := h; rfl
  have hirq : (t.irqLine && !t.flags.i) = (s.irqLine && !s.flags.i) := by
    obtain ⟨_, _, rfl, ⟨_, _, rfl, -, -⟩, -⟩ := h
    rfl
  simp only [serviceOrExecute, hlatch, hirq]
  split
  · exact outcomes_toOutcome ((h.setNmiLatch false).enters hd nmiVector)
  split
  · exact outcomes_toOutcome (h.enters hd irqVector)
  have hf := results_fetchInstr h
  simp only [executeNext]
  rcases hs : fetchInstr s with ⟨kind, u⟩ | ⟨i, u⟩ <;> rcases ht : fetchInstr t with ⟨kind', w⟩ | ⟨j, w⟩ <;>
    rw [hs, ht] at hf
  · exact ⟨hf.1, u, w, hf.2, rfl, by rw [hf.1]⟩
  · exact hf.elim
  · exact hf.elim
  · obtain ⟨rfl, hst⟩ := hf
    exact outcomes_exec (fun _ => hd) hst

end Sys2Proof.Machine.View
end

section
/-! The status byte (10_state.md R26, R27), and the instructions that push and pull, with BRK, RTI and the returns that undo
their entries (41_load_store_transfer.md R213–R216; 43_control_transfer.md R272–R275; 60_exceptions.md R336, R338). -/

namespace Sys2Proof.Machine

/-! The status byte -/

/-- A statement about the seven flags holds of all when it holds of each of their 128 values. -/
theorem flags_forall {P : Flags → Prop} (h : ∀ n v b d i z c, P ⟨n, v, b, d, i, z, c⟩) (f : Flags) : P f :=
  h f.n f.v f.b f.d f.i f.z f.c

theorem getP_setP (p : Byte) : getP (setP p) = p ||| 0x20 := by
  revert p
  decide

theorem setP_getP : ∀ f, setP (getP f) = f := flags_forall (by decide)

/-- The byte PHP and BRK push unpacks to the flags with B set (R214, R275). -/
theorem setP_getP_or : ∀ f, setP (getP f ||| 0x30) = { f with b := true } := flags_forall (by decide)

/-- The byte an interrupt entry pushes unpacks to the flags with B clear (R336). -/
theorem setP_getP_and : ∀ f, setP ((getP f &&& 0xEF) ||| 0x20) = { f with b := false } := flags_forall (by decide)

/-- The eight bits of the packed byte (R26). -/
theorem getP_bits : ∀ f, (getP f).getLsbD 7 = f.n ∧ (getP f).getLsbD 6 = f.v ∧ (getP f).getLsbD 5 = true ∧
    (getP f).getLsbD 4 = f.b ∧ (getP f).getLsbD 3 = f.d ∧ (getP f).getLsbD 2 = f.i ∧ (getP f).getLsbD 1 = f.z ∧
      (getP f).getLsbD 0 = f.c := flags_forall (by decide)

/-- Settles O18: both round trips (`getP_setP`, `setP_getP`) and the bits (`getP_bits`), value by value of the byte and of the
flags. -/
theorem statusByte : Obligations.StatusByte := ⟨getP_setP, fun f => ⟨setP_getP f, getP_bits f⟩⟩

/-! Pushes and pulls -/

theorem exec_pha (s : State) : exec .pha s = .next
    { s with ram := s.ram.write (0x100 + s.sp.toNat) s.a, sp := s.sp - 1, pc := s.pc + 1, stepCycles := 3 } := by
  have hrun : exec .pha s = toOutcome (push s.a (s.prepared 0 3)) := runInstr_implied _ _ _
  rw [hrun, push_eq]
  rfl

theorem exec_php (s : State) : exec .php s = .next
    { s with
      ram := s.ram.write (0x100 + s.sp.toNat) (getP s.flags ||| 0x30), sp := s.sp - 1, pc := s.pc + 1, stepCycles := 3 } := by
  have hrun : exec .php s = toOutcome (push (getP s.flags ||| 0x30) (s.prepared 0 3)) := runInstr_implied _ _ _
  rw [hrun, push_eq]
  rfl

theorem exec_pla (s : State) : exec .pla s = .next
    { s with
      a := s.ram.read (0x100 + (s.sp + 1).toNat), flags := nzFrom (s.ram.read (0x100 + (s.sp + 1).toNat)) s.flags,
      sp := s.sp + 1, pc := s.pc + 1, stepCycles := 4 } := by
  have hrun : exec .pla s = toOutcome (opPla s.pc ⟨.nil, false⟩ (s.prepared 0 4)) := runInstr_implied _ _ _
  rw [hrun, opPla, pull_eq]
  rfl

theorem exec_plp (s : State) : exec .plp s = .next
    { s with flags := setP (s.ram.read (0x100 + (s.sp + 1).toNat)), sp := s.sp + 1, pc := s.pc + 1, stepCycles := 4 } := by
  have hrun : exec .plp s = toOutcome (opPlp s.pc ⟨.nil, false⟩ (s.prepared 0 4)) := runInstr_implied _ _ _
  rw [hrun, opPlp, pull_eq]
  rfl

/-- Settles O39: each instruction is its operation from the prepared state, and the push and the pull have closed answers. -/
theorem stackInstructions : Obligations.StackInstructions := fun s =>
  ⟨⟨rfl, rfl, rfl, rfl⟩, exec_pha s, exec_php s, exec_pla s, exec_plp s⟩

/-! BRK and RTI -/

theorem exec_brk (s : State) : exec .brk s = .next
    { s with
      ram := exceptionFrame (s.pc + 2) (getP s.flags ||| 0x30) s, sp := s.sp - 3, flags := { s.flags with i := true },
      pc := prgWord irqVector s, stepCycles := 7 } := by
  have hrun : exec .brk s = toOutcome (takeException (s.pc + 2) (getP s.flags ||| 0x30) irqVector (s.prepared 0 7)) :=
    runInstr_implied _ _ _
  rw [hrun, takeException_eq _ _ _ (by decide) (by decide)]
  rfl

theorem exec_rti (s : State) : exec .rti s = .next
    { s with
      flags := setP (s.ram.read (0x100 + (s.sp + 1).toNat)), sp := s.sp + 3,
      pc := mkWord (s.ram.read (0x100 + (s.sp + 2).toNat)) (s.ram.read (0x100 + (s.sp + 3).toNat)), stepCycles := 6 } := by
  have hrun : exec .rti s = toOutcome (returnFromException (s.prepared 0 6)) := runInstr_implied _ _ _
  rw [hrun, returnFromException_eq]
  rfl

/-- Settles O51: the closed answers of the exception and of the return from it, the vector and the pulled PC written as the
statement does (`observeWord_prg`, `mkWord_eq_ofNat`). -/
theorem breakAndReturnFromInterrupt : Obligations.BreakAndReturnFromInterrupt := by
  intro s
  refine ⟨rfl, rfl, ?_, ?_⟩
  · rw [exec_brk, observeWord_prg s (by decide) (by decide)]
    rfl
  · rw [exec_rti, mkWord_eq_ofNat]

/-! Returns undo entries -/

/-- The three slots of an exception are three bytes, also where SP wraps (R24). -/
theorem stackSlot_ne_afterNext (sp : Byte) : 0x100 + sp.toNat ≠ 0x100 + (sp - 2).toNat := by bv_omega

/-- The exception's frame read back, the last pushed byte first (R28, R336). -/
theorem exceptionFrame_read (returnPc : Word) (status : Byte) (s : State) :
    (exceptionFrame returnPc status s).read (0x100 + (s.sp - 2).toNat) = status ∧
      (exceptionFrame returnPc status s).read (0x100 + (s.sp - 1).toNat) = lowByte returnPc ∧
      (exceptionFrame returnPc status s).read (0x100 + s.sp.toNat) = highByte returnPc := by
  have hnext : 0x100 + (s.sp - 1).toNat ≠ 0x100 + (s.sp - 2).toNat := by bv_omega
  refine ⟨Memory.read_write_same .., ?_, ?_⟩
  · exact (Memory.read_write_other _ _ _ hnext).trans (Memory.read_write_same ..)
  · exact ((Memory.read_write_other _ _ _ (stackSlot_ne_afterNext s.sp)).trans
      (Memory.read_write_other _ _ _ (stackSlot_ne_next s.sp))).trans (Memory.read_write_same ..)

/-- RTI from a state whose stack holds an exception's frame comes back to the pushed PC, SP and status byte (R338). -/
theorem rti_of_exceptionFrame {s u v : State} {returnPc : Word} {status : Byte}
    (hram : u.ram = exceptionFrame returnPc status s) (hsp : u.sp = s.sp - 3) (h : exec .rti u = .next v) :
    v.pc = returnPc ∧ v.sp = s.sp ∧ v.flags = setP status := by
  obtain ⟨hstatus, hlow, hhigh⟩ := exceptionFrame_read returnPc status s
  have h1 : s.sp - 3 + 1 = s.sp - 2 := by bv_omega
  have h2 : s.sp - 3 + 2 = s.sp - 1 := by bv_omega
  rw [exec_rti, hram, hsp, h1, h2, BitVec.sub_add_cancel, hstatus, hlow, hhigh, mkWord_lowByte_highByte] at h
  obtain rfl := Host.Outcome.next.inj h
  exact ⟨rfl, rfl, rfl⟩

/-- RTS from a state whose stack holds a return address comes to the address after it (R273). -/
theorem rts_after_jsr {addr : Word} {s t u v : State} (hram : u.ram = t.ram) (hsp : u.sp = t.sp)
    (hjsr : exec (.jsr addr) s = .next t) (hrts : exec .rts u = .next v) : v.pc = s.pc + 3 ∧ v.sp = s.sp := by
  rw [exec_jsr] at hjsr
  obtain rfl := Host.Outcome.next.inj hjsr
  have h1 : s.sp - 2 + 1 = s.sp - 1 := by bv_omega
  rw [exec_rts, hram, hsp, h1, BitVec.sub_add_cancel, Memory.read_write_same,
    Memory.read_write_other _ _ _ (stackSlot_ne_next s.sp), Memory.read_write_same, mkWord_lowByte_highByte,
    BitVec.add_assoc] at hrts
  obtain rfl := Host.Outcome.next.inj hrts
  exact ⟨rfl, rfl⟩

theorem interruptEntry_vector {vec : Word} (hvec : vec ∈ [nmiVector, irqVector]) (s : State) :
    interruptEntry vec s =
      .ok (((((s.setStepCycles 7).setRam (exceptionFrame s.pc ((getP s.flags &&& 0xEF) ||| 0x20) s)).setSp (s.sp - 3)).setFlags
        { s.flags with i := true }).setPc (prgWord vec s)) := by
  rcases List.mem_pair.mp hvec with rfl | rfl <;> exact interruptEntry_eq s (by decide) (by decide)

/-- Settles O52: RTS finds JSR's address (`rts_after_jsr`), and RTI the frame of BRK or of an interrupt entry
(`rti_of_exceptionFrame`), whose status bytes unpack to the old flags but for B (`setP_getP_or`, `setP_getP_and`). -/
theorem returnsUndoEntries : Obligations.ReturnsUndoEntries := by
  intro s t u v hram hsp
  refine ⟨fun addr => rts_after_jsr hram hsp, fun hbrk hrti => ?_, fun vec hvec hentry hrti => ?_⟩
  · rw [exec_brk] at hbrk
    obtain rfl := Host.Outcome.next.inj hbrk
    rw [← setP_getP_or]
    exact rti_of_exceptionFrame hram hsp hrti
  · rw [interruptEntry_vector hvec] at hentry
    obtain rfl := Except.ok.inj hentry
    rw [← setP_getP_and]
    exact rti_of_exceptionFrame hram hsp hrti

/-! The frame of what pushes -/

/-- A state that differs from another in RAM alone, as far as an observation can see, and there in stack slots alone, observes
every other address as the other does (R28, R62). -/
theorem memObserve_of_pushes {a : Word} {s t : State} (hport : isPort a = false)
    (hram : a.toNat ≤ 0x1FFF → t.ram.read (a.toNat % 2048) = s.ram.read (a.toNat % 2048))
    (ht : t = { s with ram := t.ram, sp := t.sp, flags := t.flags, pc := t.pc, stepCycles := t.stepCycles }) :
    memObserve a t = memObserve a s :=
  memObserve_congr hport hram (by rw [ht]) (by rw [ht]) (by rw [ht])

/-- Settles O40: each instruction's closed answer writes its own slots, and an observation of another cell does not depend on
them (`read_write_stackSlot_of_not_sameCell`). -/
theorem pushingInstructionsFrame : Obligations.PushingInstructionsFrame := by
  intro i n s t hi hexec
  have hslot0 : ∀ a, sameCell a (0x0100 ||| (s.sp - BitVec.ofNat 8 0).setWidth 16) = false →
      sameCell a (stackAddress s.sp) = false := fun a h => by rwa [BitVec.sub_zero] at h
  simp only [List.mem_cons, Prod.mk.injEq, List.not_mem_nil, or_false] at hi
  rcases hi with (⟨rfl, rfl⟩ | ⟨rfl, rfl⟩ | ⟨rfl, rfl⟩) | ⟨rfl, addr, rfl⟩
  · rw [exec_pha] at hexec
    obtain rfl := Host.Outcome.next.inj hexec
    exact ⟨rfl, fun a hport hcell => memObserve_of_pushes hport
      (fun ha => read_write_stackSlot_of_not_sameCell (hslot0 a (hcell 0 (by decide))) ha _ _) rfl⟩
  · rw [exec_php] at hexec
    obtain rfl := Host.Outcome.next.inj hexec
    exact ⟨rfl, fun a hport hcell => memObserve_of_pushes hport
      (fun ha => read_write_stackSlot_of_not_sameCell (hslot0 a (hcell 0 (by decide))) ha _ _) rfl⟩
  · rw [exec_brk] at hexec
    obtain rfl := Host.Outcome.next.inj hexec
    exact ⟨rfl, fun a hport hcell => memObserve_of_pushes hport
      (fun ha => ((read_write_stackSlot_of_not_sameCell (hcell 2 (by decide)) ha _ _).trans
        (read_write_stackSlot_of_not_sameCell (hcell 1 (by decide)) ha _ _)).trans
        (read_write_stackSlot_of_not_sameCell (hslot0 a (hcell 0 (by decide))) ha _ _)) rfl⟩
  · rw [exec_jsr] at hexec
    obtain rfl := Host.Outcome.next.inj hexec
    exact ⟨rfl, fun a hport hcell => memObserve_of_pushes hport
      (fun ha => (read_write_stackSlot_of_not_sameCell (hcell 1 (by decide)) ha _ _).trans
        (read_write_stackSlot_of_not_sameCell (hslot0 a (hcell 0 (by decide))) ha _ _)) rfl⟩

end Sys2Proof.Machine
end

section
/-! The writers of each register and flag (10_state.md R21–R24, R29–R35): which fields an operation can write, said once for
every mnemonic, so that every other field stays. -/

namespace Sys2Proof.Machine

/-- The registers and flags, one name each (R20). -/
inductive Field where
  | a | x | y | sp | n | v | b | d | i | z | c
  deriving DecidableEq

/-- A register or flag is the same in two states. -/
def Field.Same (s t : State) : Field → Prop
  | .a => t.a = s.a
  | .x => t.x = s.x
  | .y => t.y = s.y
  | .sp => t.sp = s.sp
  | .n => t.flags.n = s.flags.n
  | .v => t.flags.v = s.flags.v
  | .b => t.flags.b = s.flags.b
  | .d => t.flags.d = s.flags.d
  | .i => t.flags.i = s.flags.i
  | .z => t.flags.z = s.flags.z
  | .c => t.flags.c = s.flags.c

/-- Every register and flag outside a list is the same in two states. -/
def Unwritten (w : List Field) (s t : State) : Prop := ∀ f ∉ w, f.Same s t

/-- The field of a register operand. -/
def Reg.field : Reg → Field
  | .a => .a
  | .x => .x
  | .y => .y

/-- The fields a write of an operand writes (R163). -/
def Operand.writes : Operand → List Field
  | .reg r => [r.field]
  | _ => []

/-- The fields the mnemonic's rule lists it as a writer of, its operand apart (R21–R24, R29–R35). -/
def Mnemonic.writes : Mnemonic → List Field
  | .lda | .txa | .tya | .and | .ora | .eor => [.a, .n, .z]
  | .ldx | .tax | .tsx | .inx | .dex => [.x, .n, .z]
  | .ldy | .tay | .iny | .dey => [.y, .n, .z]
  | .adc | .sbc => [.a, .n, .v, .z, .c]
  | .txs | .pha | .php | .jsr | .rts => [.sp]
  | .pla => [.a, .sp, .n, .z]
  | .plp | .rti => [.sp, .n, .v, .b, .d, .i, .z, .c]
  | .brk => [.sp, .i]
  | .bit => [.n, .v, .z]
  | .cmp | .cpx | .cpy | .asl | .lsr | .rol | .ror => [.n, .z, .c]
  | .inc | .dec => [.n, .z]
  | .clc | .sec => [.c]
  | .cli | .sei => [.i]
  | .cld | .sed => [.d]
  | .clv => [.v]
  | _ => []

section
variable {w w' : List Field} {s t u : State}

theorem Field.same_trans {f : Field} (h : f.Same s t) (h' : f.Same t u) : f.Same s u := by
  cases f <;> exact Eq.trans h' h

theorem unwritten_refl : Unwritten w s s := fun f _ => by cases f <;> rfl

theorem unwritten_trans (h : Unwritten w s t) (h' : Unwritten w t u) : Unwritten w s u := fun f hf =>
  Field.same_trans (h f hf) (h' f hf)

/-- What keeps the core's registers writes no field. -/
theorem unwritten_of_core_kept (h : t = t.withCore s) : Unwritten w s t := by
  rw [h]
  exact fun f _ => by cases f <;> rfl

theorem unwritten_writeReg (r : Reg) (b : Byte) (hr : r.field ∈ w) : Unwritten w s (writeReg r b s) := by
  intro f hf
  cases r <;> cases f <;> first | rfl | exact absurd hr hf

/-- New flags write the flags in which they differ. -/
theorem unwritten_setFlags {p : Flags} (h : (.n ∈ w ∨ p.n = s.flags.n) ∧ (.v ∈ w ∨ p.v = s.flags.v) ∧
    (.b ∈ w ∨ p.b = s.flags.b) ∧ (.d ∈ w ∨ p.d = s.flags.d) ∧ (.i ∈ w ∨ p.i = s.flags.i) ∧ (.z ∈ w ∨ p.z = s.flags.z) ∧
      (.c ∈ w ∨ p.c = s.flags.c)) : Unwritten w s (s.setFlags p) := by
  obtain ⟨hn, hv, hb, hd, hi, hz, hc⟩ := h
  intro f hf
  cases f with
  | a | x | y | sp => rfl
  | n => exact hn.resolve_left hf
  | v => exact hv.resolve_left hf
  | b => exact hb.resolve_left hf
  | d => exact hd.resolve_left hf
  | i => exact hi.resolve_left hf
  | z => exact hz.resolve_left hf
  | c => exact hc.resolve_left hf

theorem unwritten_setNZ (b : Byte) (hn : .n ∈ w) (hz : .z ∈ w) : Unwritten w s (s.setFlags (setNZ b s.flags)) := by
  exact unwritten_setFlags ⟨.inl hn, .inr rfl, .inr rfl, .inr rfl, .inr rfl, .inl hz, .inr rfl⟩

theorem unwritten_addCycles (k : Nat) : Unwritten w s (addCycles k s) := fun f _ => by cases f <;> rfl

theorem unwritten_setPc (pc : Word) : Unwritten w s (s.setPc pc) := fun f _ => by cases f <;> rfl

/-- What changes RAM, SP and PC writes SP alone (R28). -/
theorem unwritten_of_stack (hsp : .sp ∈ w) (h : t = { s with ram := t.ram, sp := t.sp, pc := t.pc }) : Unwritten w s t := by
  rw [h]
  intro f hf
  cases f <;> first | rfl | exact absurd hsp hf

end

/-! Operations -/

/-- An operation on an operand writes no field outside a list. -/
def Writes (w : List Field) (m : Addressed) (op : Operation) : Prop :=
  ∀ pc0 {s0 s : State}, Unwritten w s0 s → Leaves (Unwritten w s0) id (op pc0 m s)

section
variable {w : List Field} {m : Addressed} {s0 s : State}

theorem leaves_memRead (addr : Word) (h : Unwritten w s0 s) : Leaves (Unwritten w s0) Prod.snd (memRead addr s) := by
  cases hr : memRead addr s with
  | ok r => exact unwritten_trans h (unwritten_of_core_kept (memRead_core_kept hr).1)
  | error e =>
    obtain ⟨kind, t⟩ := e
    obtain ⟨rfl, -⟩ := memRead_error hr
    exact h

theorem leaves_memWrite (addr : Word) (b : Byte) (h : Unwritten w s0 s) :
    Leaves (Unwritten w s0) Prod.snd (memWrite addr b s) := by
  cases hw : memWrite addr b s with
  | ok r => exact unwritten_trans h (unwritten_of_core_kept (memWrite_core_kept hw).1)
  | error e =>
    obtain ⟨kind, t⟩ := e
    exact unwritten_trans h (unwritten_of_core_kept (memWrite_error_core hw))

theorem leaves_readOperand (pc0 : Word) (o : Operand) (h : Unwritten w s0 s) :
    Leaves (Unwritten w s0) Prod.snd (readOperand pc0 o s) := by
  cases o with
  | ram ea => exact leaves_memRead ea h
  | _ => exact h

theorem leaves_writeOperand (pc0 : Word) {o : Operand} (b : Byte) (ho : o.writes ⊆ w) (h : Unwritten w s0 s) :
    Leaves (Unwritten w s0) id (writeOperand pc0 o b s) := by
  cases o with
  | ram ea => exact leaves_bind (leaves_memWrite ea b h) fun _ h => unwritten_trans h (unwritten_addCycles _)
  | reg r => exact unwritten_trans h (unwritten_writeReg r b (ho (List.mem_singleton.mpr rfl)))
  | _ => exact h

/-- What reads its operand and then writes fields of the list alone. -/
theorem writes_reading {op : Operation} (f : Byte → State → State) (hf : ∀ b s, Unwritten w s (f b s))
    (hop : ∀ pc0 s, op pc0 m s = (readOperand pc0 m.opnd s >>= fun r => .ok (f r.1 r.2))) : Writes w m op := by
  intro pc0 s0 s h
  rw [hop]
  exact leaves_bind (leaves_readOperand pc0 m.opnd h) fun r h => unwritten_trans h (hf r.1 r.2)

/-- What answers at once and writes fields of the list alone. -/
theorem writes_pure {op : Operation} (f : Word → State → State) (hf : ∀ pc0 s, Unwritten w s (f pc0 s))
    (hop : ∀ pc0 s, op pc0 m s = .ok (f pc0 s)) : Writes w m op := by
  intro pc0 s0 s h
  rw [hop]
  exact unwritten_trans h (hf pc0 s)

theorem unwritten_writeRegNZ (r : Reg) (b : Byte) (s : State) (hr : r.field ∈ w) (hn : .n ∈ w) (hz : .z ∈ w) :
    Unwritten w s ((writeReg r b s).setFlags (setNZ b s.flags)) := by
  have hnz := unwritten_setNZ (s := writeReg r b s) b hn hz
  rw [show (writeReg r b s).flags = s.flags by cases r <;> rfl] at hnz
  exact unwritten_trans (unwritten_writeReg r b hr) hnz

theorem writes_load (r : Reg) : Writes (m.opnd.writes ++ [r.field, .n, .z]) m (loadRegister r) :=
  writes_reading (fun b s => (writeReg r b s).setFlags (setNZ b s.flags))
    (fun b s => unwritten_writeRegNZ r b s (by simp) (by simp) (by simp)) fun _ _ => rfl

theorem writes_transfer (r : Reg) (b : State → Byte) : Writes (m.opnd.writes ++ [r.field, .n, .z]) m (transferTo r b) :=
  writes_pure (fun _ s => (writeReg r (b s) s).setFlags (setNZ (b s) s.flags))
    (fun _ s => unwritten_writeRegNZ r (b s) s (by simp) (by simp) (by simp)) fun _ _ => rfl

theorem writes_store (b : State → Byte) : Writes (m.opnd.writes ++ []) m fun pc0 m s => writeOperand pc0 m.opnd (b s) s :=
  fun pc0 _ _ h => leaves_writeOperand pc0 _ (by simp) h

theorem writes_accumulate {f : Byte → Byte → Flags → Byte × Flags} (ha : .a ∈ w)
    (hf : ∀ a b (s : State), Unwritten w s (s.setFlags (f a b s.flags).2)) : Writes w m (accumulate f) :=
  writes_reading (fun b s => (s.setA (f s.a b s.flags).1).setFlags (f s.a b s.flags).2)
    (fun b s => unwritten_trans (unwritten_writeReg .a (f s.a b s.flags).1 ha) (hf s.a b (s.setA (f s.a b s.flags).1)))
    fun _ _ => rfl

theorem writes_logic (f : Byte → Byte → Byte) (ha : .a ∈ w) (hn : .n ∈ w) (hz : .z ∈ w) : Writes w m (logic f) :=
  writes_accumulate ha fun _ _ _ => unwritten_setNZ _ hn hz

theorem writes_test {f : Byte → State → Flags} (hf : ∀ b (s : State), Unwritten w s (s.setFlags (f b s))) :
    Writes w m (testOperand f) := writes_reading (fun b s => s.setFlags (f b s)) hf fun _ _ => rfl

theorem writes_compare (reg : State → Byte) (hn : .n ∈ w) (hz : .z ∈ w) (hc : .c ∈ w) :
    Writes w m (testOperand fun m s => compareFlags (reg s) m s.flags) :=
  writes_test fun _ _ => unwritten_setFlags ⟨.inl hn, .inr rfl, .inr rfl, .inr rfl, .inr rfl, .inl hz, .inl hc⟩

theorem writes_modify {f : Byte → Flags → Byte × Flags} (ho : m.opnd.writes ⊆ w) (hn : .n ∈ w) (hz : .z ∈ w)
    (hf : ∀ b (s : State), Unwritten w s (s.setFlags (f b s.flags).2)) : Writes w m (readModifyWrite f) := fun pc0 _ _ h =>
  leaves_bind (Kept.rmwChecked m.opnd h) fun _ h => leaves_bind (leaves_readOperand pc0 m.opnd h) fun r h =>
    leaves_bind (leaves_writeOperand pc0 _ ho (unwritten_trans h (hf r.1 r.2))) fun _ h =>
      unwritten_trans h (unwritten_setNZ _ hn hz)

theorem writes_shift {f : Byte → Flags → Byte × Flags} (hf : ∀ b p, (f b p).2 = { p with c := (f b p).2.c })
    (ho : m.opnd.writes ⊆ w) (hn : .n ∈ w) (hz : .z ∈ w) (hc : .c ∈ w) : Writes w m (readModifyWrite f) :=
  writes_modify ho hn hz fun b s => by
    rw [hf]
    exact unwritten_setFlags ⟨.inr rfl, .inr rfl, .inr rfl, .inr rfl, .inr rfl, .inr rfl, .inl hc⟩

theorem writes_changeFlags {f : Flags → Flags} (hf : ∀ s : State, Unwritten w s (s.setFlags (f s.flags))) :
    Writes w m (changeFlags f) := writes_pure (fun _ s => s.setFlags (f s.flags)) (fun _ => hf) fun _ _ => rfl

theorem writes_target {f : Word → State → Result State}
    (hf : ∀ ea {s0 s : State}, Unwritten w s0 s → Leaves (Unwritten w s0) id (f ea s)) : Writes w m (withTarget f) := by
  intro pc0 s0 s h
  simp only [withTarget]
  split
  · exact hf _ h
  · exact h

theorem writes_branch (cond : State → Bool) : Writes w m (branch cond) := by
  intro pc0 s0 s h
  simp only [branch]
  split
  · exact writes_target (w := w) (m := m) (f := fun ea s => .ok ((addCycles (if m.cross then 2 else 1) s).setPc ea))
      (fun ea _ _ h => unwritten_trans h (unwritten_trans (unwritten_addCycles _) (unwritten_setPc ea))) pc0 h
  · exact h

theorem writes_jsr (hsp : .sp ∈ w) : Writes w m opJsr := fun pc0 _ _ h =>
  writes_target (f := fun ea s => do .ok ((← push16 (pc0 + 2) s).setPc ea))
    (fun ea _ s h => by
      simp only [push16_eq, ok_bind]
      exact unwritten_trans h (unwritten_of_stack hsp rfl)) pc0 h

theorem writes_pla (ha : .a ∈ w) (hsp : .sp ∈ w) (hn : .n ∈ w) (hz : .z ∈ w) : Writes w m opPla :=
  writes_pure (fun _ s => ((s.setSp (s.sp + 1)).setA (s.ram.read (0x100 + (s.sp + 1).toNat))).setFlags
      (setNZ (s.ram.read (0x100 + (s.sp + 1).toNat)) s.flags))
    (fun _ s => unwritten_trans (unwritten_of_stack hsp rfl) (unwritten_writeRegNZ .a _ (s.setSp (s.sp + 1)) ha hn hz))
    fun _ s => by simp only [opPla, pull_eq]; rfl

/-- A pulled byte as the flags (R216, R274). -/
theorem unwritten_setP {s : State} (p : Byte) (hw : [Field.n, .v, .b, .d, .i, .z, .c] ⊆ w) :
    Unwritten w s (s.setFlags (setP p)) := by
  refine unwritten_setFlags ⟨.inl ?_, .inl ?_, .inl ?_, .inl ?_, .inl ?_, .inl ?_, .inl ?_⟩ <;> exact hw (by simp)

theorem writes_plp (hw : [Field.sp, .n, .v, .b, .d, .i, .z, .c] ⊆ w) : Writes w m opPlp :=
  writes_pure (fun _ s => (s.setSp (s.sp + 1)).setFlags (setP (s.ram.read (0x100 + (s.sp + 1).toNat))))
    (fun _ _ => unwritten_trans (unwritten_of_stack (hw (by simp)) rfl) (unwritten_setP _ fun _ h => hw (.tail _ h)))
    fun _ s => by simp only [opPlp, pull_eq]; rfl

theorem writes_rti (hw : [Field.sp, .n, .v, .b, .d, .i, .z, .c] ⊆ w) : Writes w m opRti :=
  writes_pure _
    (fun _ _ => unwritten_trans (unwritten_trans (unwritten_of_stack (hw (by simp)) rfl)
      (unwritten_setP _ fun _ h => hw (.tail _ h))) (unwritten_setPc _))
    fun _ s => returnFromException_eq s

theorem writes_brk (hsp : .sp ∈ w) (hi : .i ∈ w) : Writes w m opBrk :=
  writes_pure
    (fun pc0 s => (((s.setRam (exceptionFrame (pc0 + 2) (getP s.flags ||| 0x30) s)).setSp (s.sp - 3)).setFlags
      { s.flags with i := true }).setPc (prgWord irqVector s))
    (fun _ _ f hf => by cases f <;> first | rfl | exact absurd hsp hf | exact absurd hi hf)
    fun pc0 s => takeException_eq (pc0 + 2) (getP s.flags ||| 0x30) s (by decide) (by decide)

end

/-- An operation writes its operand's field and its mnemonic's fields alone (R21–R24, R29–R35). -/
theorem writes_operationOf (mn : Mnemonic) (m : Addressed) : Writes (m.opnd.writes ++ mn.writes) m (operationOf mn) := by
  cases mn with
  | lda => exact writes_load .a
  | ldx => exact writes_load .x
  | ldy => exact writes_load .y
  | sta | stx | sty => exact writes_store _
  | tax => exact writes_transfer .x _
  | tay => exact writes_transfer .y _
  | txa => exact writes_transfer .a _
  | tya => exact writes_transfer .a _
  | tsx => exact writes_transfer .x _
  | inx => exact writes_transfer .x _
  | iny => exact writes_transfer .y _
  | dex => exact writes_transfer .x _
  | dey => exact writes_transfer .y _
  | txs =>
    exact writes_pure (fun _ s => s.setSp s.x) (fun _ _ => unwritten_of_stack (by simp [Mnemonic.writes]) rfl) fun _ _ => rfl
  | pha => exact writes_pure _ (fun _ _ => unwritten_of_stack (by simp [Mnemonic.writes]) rfl) fun _ s => push_eq s.a s
  | php =>
    exact writes_pure _ (fun _ _ => unwritten_of_stack (by simp [Mnemonic.writes]) rfl)
      fun _ s => push_eq (getP s.flags ||| 0x30) s
  | pla => exact writes_pla (by simp [Mnemonic.writes]) (by simp [Mnemonic.writes]) (by simp [Mnemonic.writes]) (by simp [Mnemonic.writes])
  | plp => exact writes_plp (by simp [Mnemonic.writes])
  | adc =>
    exact writes_accumulate (f := Machine.adc) (by simp [Mnemonic.writes])
      fun _ _ _ => unwritten_setFlags (by simp [Mnemonic.writes, Machine.adc, setNZ])
  | sbc =>
    exact writes_accumulate (f := Machine.sbc) (by simp [Mnemonic.writes])
      fun _ _ _ => unwritten_setFlags (by simp [Mnemonic.writes, Machine.sbc, setNZ])
  | and | ora | eor => exact writes_logic _ (by simp [Mnemonic.writes]) (by simp [Mnemonic.writes]) (by simp [Mnemonic.writes])
  | bit =>
    exact writes_test (f := fun m s => bitFlags s.a m s.flags)
      fun _ _ => unwritten_setFlags (by simp [Mnemonic.writes, bitFlags])
  | cmp => exact writes_compare State.a (by simp [Mnemonic.writes]) (by simp [Mnemonic.writes]) (by simp [Mnemonic.writes])
  | cpx => exact writes_compare State.x (by simp [Mnemonic.writes]) (by simp [Mnemonic.writes]) (by simp [Mnemonic.writes])
  | cpy => exact writes_compare State.y (by simp [Mnemonic.writes]) (by simp [Mnemonic.writes]) (by simp [Mnemonic.writes])
  | inc => exact writes_modify (f := Machine.inc) (by simp) (by simp [Mnemonic.writes]) (by simp [Mnemonic.writes]) fun _ _ => unwritten_refl
  | dec => exact writes_modify (f := Machine.dec) (by simp) (by simp [Mnemonic.writes]) (by simp [Mnemonic.writes]) fun _ _ => unwritten_refl
  | asl => exact writes_shift (f := Machine.asl) (fun _ _ => rfl) (by simp) (by simp [Mnemonic.writes]) (by simp [Mnemonic.writes]) (by simp [Mnemonic.writes])
  | lsr => exact writes_shift (f := Machine.lsr) (fun _ _ => rfl) (by simp) (by simp [Mnemonic.writes]) (by simp [Mnemonic.writes]) (by simp [Mnemonic.writes])
  | rol => exact writes_shift (f := Machine.rol) (fun _ _ => rfl) (by simp) (by simp [Mnemonic.writes]) (by simp [Mnemonic.writes]) (by simp [Mnemonic.writes])
  | ror => exact writes_shift (f := Machine.ror) (fun _ _ => rfl) (by simp) (by simp [Mnemonic.writes]) (by simp [Mnemonic.writes]) (by simp [Mnemonic.writes])
  | jmp => exact writes_target fun ea _ _ h => unwritten_trans h (unwritten_setPc ea)
  | jsr => exact writes_jsr (by simp [Mnemonic.writes])
  | rts => exact writes_pure _ (fun _ _ => unwritten_of_stack (by simp [Mnemonic.writes]) rfl) fun pc0 s => opRts_eq pc0 m s
  | rti => exact writes_rti (by simp [Mnemonic.writes])
  | brk => exact writes_brk (by simp [Mnemonic.writes]) (by simp [Mnemonic.writes])
  | bcc | bcs | beq | bmi | bne | bpl | bvc | bvs => exact writes_branch _
  | clc => exact writes_changeFlags (f := fun p => { p with c := false }) fun _ => unwritten_setFlags (by simp [Mnemonic.writes])
  | sec => exact writes_changeFlags (f := fun p => { p with c := true }) fun _ => unwritten_setFlags (by simp [Mnemonic.writes])
  | cli => exact writes_changeFlags (f := fun p => { p with i := false }) fun _ => unwritten_setFlags (by simp [Mnemonic.writes])
  | sei => exact writes_changeFlags (f := fun p => { p with i := true }) fun _ => unwritten_setFlags (by simp [Mnemonic.writes])
  | cld => exact writes_changeFlags (f := fun p => { p with d := false }) fun _ => unwritten_setFlags (by simp [Mnemonic.writes])
  | sed => exact writes_changeFlags (f := fun p => { p with d := true }) fun _ => unwritten_setFlags (by simp [Mnemonic.writes])
  | clv => exact writes_changeFlags (f := fun p => { p with v := false }) fun _ => unwritten_setFlags (by simp [Mnemonic.writes])
  | nop => exact writes_pure (fun _ s => s) (fun _ _ => unwritten_refl) fun _ _ => rfl

end Sys2Proof.Machine
end

section
/-! What an instruction that completes is made of (40_step.md R162–R166), and from it the writers of every register and flag
(10_state.md R21–R24, R29–R35) and the bookkeeping that no instruction touches. -/

namespace Sys2Proof.Machine

/-- An instruction that completes: its mode answered an operand, and its operation completed on it (R162–R166). -/
theorem runInstr_next {base n : Nat} {marked : Bool} {mode : Mode} {op : Operation} {s t : State}
    (h : runInstr base marked n mode op s = .next t) :
    ∃ a u, mode (s.prepared n base) = .ok (a, u) ∧ op s.pc a (if marked && a.cross then addCycles 1 u else u) = .ok t := by
  rw [runInstr, advance_pc] at h
  cases hm : mode (s.prepared n base) with
  | error e => rw [show (s.setPc _).setStepCycles base = s.prepared n base from rfl, hm] at h; cases h
  | ok r =>
    rw [show (s.setPc _).setStepCycles base = s.prepared n base from rfl, hm, ok_bind] at h
    refine ⟨r.1, r.2, rfl, ?_⟩
    cases ho : op s.pc r.1 (if marked && r.1.cross then addCycles 1 r.2 else r.2) with
    | error e => simp only [ho] at h; cases h
    | ok t' => simp only [ho] at h; cases h; rfl

/-- The field that an operand of this way to address is, if it is a register (R131). -/
def Addressing.writes : Addressing → List Field
  | .acc => [.a]
  | _ => []

/-- A mode that answers: the indirect form after its two pointer reads, every other mode with nothing changed (R130–R142). -/
theorem Addressing.mode_ok {m : Addressing} {a : Addressed} {s u : State} (h : m.mode s = .ok (a, u)) :
    a.opnd.writes = m.writes ∧ (u = s ∨ ∃ addr lo hi s1, memRead addr s = .ok (lo, s1) ∧
      memRead (samePageNext addr) s1 = .ok (hi, u)) := by
  cases m with
  | ind addr =>
    simp only [Addressing.mode, modeInd] at h
    cases h1 : memRead addr s with
    | error e => rw [h1] at h; cases h
    | ok r1 =>
      rw [h1, ok_bind] at h
      cases h2 : memRead (samePageNext addr) r1.2 with
      | error e => simp only [h2] at h; cases h
      | ok r2 =>
        simp only [h2, ok_bind] at h
        cases h
        exact ⟨rfl, .inr ⟨addr, r1.1, r2.1, r1.2, h1, h2⟩⟩
  | indX b1 => rw [Addressing.mode, modeIndX_eq] at h; cases h; exact ⟨rfl, .inl rfl⟩
  | indY b1 => rw [Addressing.mode, modeIndY_eq] at h; cases h; exact ⟨rfl, .inl rfl⟩
  | _ => cases h; exact ⟨rfl, .inl rfl⟩

/-- A mode that answers keeps the core's registers. -/
theorem Addressing.mode_core_kept {m : Addressing} {a : Addressed} {s u : State} (h : m.mode s = .ok (a, u)) :
    u = u.withCore s := by
  obtain ⟨-, rfl | ⟨addr, lo, hi, s1, h1, h2⟩⟩ := mode_ok h
  · rfl
  · rw [(memRead_core_kept h2).1, (memRead_core_kept h1).1]
    rfl

/-- The fields an instruction writes: its operand's and its mnemonic's. -/
def Instr.writes (i : Instr) : List Field := (addressingOf i).writes ++ (mnemonicOf i).writes

/-- An instruction leaves every register and flag alone that it is no writer of. -/
theorem exec_unwritten {i : Instr} {s t : State} (h : exec i s = .next t) : Unwritten (Instr.writes i) s t := by
  obtain ⟨base, marked, n, hrun, -⟩ := exec_eq_runInstr i
  rw [hrun] at h
  obtain ⟨a, u, hmode, hop⟩ := runInstr_next h
  obtain ⟨hopnd, -⟩ := Addressing.mode_ok hmode
  have hprep : Unwritten (Instr.writes i) s (s.prepared n base) := fun f _ => by cases f <;> rfl
  have hu := unwritten_trans hprep (unwritten_of_core_kept (Addressing.mode_core_kept hmode))
  have hw := writes_operationOf (mnemonicOf i) a
  rw [hopnd] at hw
  have hu' : Unwritten (Instr.writes i) s (if marked && a.cross then addCycles 1 u else u) := by
    split
    · exact unwritten_trans hu (unwritten_addCycles 1)
    · exact hu
  have ht := hw s.pc hu'
  rw [hop] at ht
  exact ht

/-- The accumulator forms alone have a register operand (R131). -/
theorem mem_addressing_writes {i : Instr} {f : Field} (h : f ∈ (addressingOf i).writes) :
    f = .a ∧ i ∈ [.aslAcc, .lsrAcc, .rolAcc, .rorAcc] := by
  cases i with
  | aslAcc | lsrAcc | rolAcc | rorAcc => exact ⟨List.mem_singleton.mp h, by simp⟩
  | _ => exact absurd h List.not_mem_nil

/-- A field of an instruction that is not A is its mnemonic's. -/
theorem mem_mnemonic_writes {i : Instr} {f : Field} (hf : f ≠ .a) (h : f ∈ Instr.writes i) : f ∈ (mnemonicOf i).writes :=
  (List.mem_append.mp h).resolve_left fun ha => hf (mem_addressing_writes ha).1

/-- A field that differs after an instruction is one it writes. -/
theorem mem_writes_of_changed {i : Instr} {s t : State} {f : Field} (h : exec i s = .next t) (hf : ¬ f.Same s t) :
    f ∈ Instr.writes i := by
  by_contra hn
  exact hf (exec_unwritten h f hn)

/-- Settles O55: a field that differs is one of the instruction's (`mem_writes_of_changed`), each mnemonic's fields are those
its rules list (`Mnemonic.writes`), and the rest is the frame every instruction keeps (`kept_frame`). -/
theorem onlyWritersWrite : Obligations.OnlyWritersWrite := by
  intro i s t h
  have hwriter : ∀ (f : Field) {l : List Mnemonic}, (∀ m : Mnemonic, f ∈ m.writes → m ∈ l) → f ≠ .a → ¬ f.Same s t →
      mnemonicOf i ∈ l := fun _ _ hl hf hs => hl _ (mem_mnemonic_writes hf (mem_writes_of_changed h hs))
  obtain ⟨hirq, hodd, hcycles, hstatus, hgate, -⟩ := (kept_frame s).exec_next h ⟨rfl, rfl, rfl, rfl, rfl, rfl⟩
  refine ⟨fun ha => ?_, fun hx => ?_, fun hy => ?_, fun hsp => ?_, fun hc => ?_, fun hv => ?_, fun hi => ?_, fun hnz => ?_,
    hodd, hcycles, hstatus, hirq, hgate⟩
  · rcases List.mem_append.mp (mem_writes_of_changed (f := .a) h ha) with hm | hm
    · exact .inr (mem_addressing_writes hm).2
    · have hl : ∀ m : Mnemonic, .a ∈ m.writes → m ∈ [.lda, .pla, .txa, .tya, .adc, .sbc, .and, .ora, .eor] := by
        intro m
        cases m <;> simp [Mnemonic.writes]
      exact .inl (hl _ hm)
  · exact hwriter .x (fun m => by cases m <;> simp [Mnemonic.writes]) (by simp) hx
  · exact hwriter .y (fun m => by cases m <;> simp [Mnemonic.writes]) (by simp) hy
  · exact hwriter .sp (fun m => by cases m <;> simp [Mnemonic.writes]) (by simp) hsp
  · exact hwriter .c (fun m => by cases m <;> simp [Mnemonic.writes]) (by simp) hc
  · exact hwriter .v (fun m => by cases m <;> simp [Mnemonic.writes]) (by simp) hv
  · exact hwriter .i (fun m => by cases m <;> simp [Mnemonic.writes]) (by simp) hi
  · rw [← List.mem_append]
    rcases hnz with hn | hz
    · exact hwriter .n (fun m => by cases m <;> simp [Mnemonic.writes]) (by simp) hn
    · exact hwriter .z (fun m => by cases m <;> simp [Mnemonic.writes]) (by simp) hz

end Sys2Proof.Machine
end

section
/-! What a program cannot see (10_state.md R32, R33; 60_exceptions.md R355): D, the stored B and the debug gate, from the two
runs side by side (`View.Outcomes`), and the gate's own answers where it breaks. -/

namespace Sys2Proof.Machine

namespace View

variable {v : View} {s t : State}

/-- The end of a run keeps states alike: it records the PC they share (R320). -/
theorem Alike.entersFaulted (kind : FaultKind) (h : v.Alike s t) : v.Alike (enterFaulted kind s) (enterFaulted kind t) := by
  obtain ⟨f, gate, rfl, hf, hg⟩ := h
  exact ⟨f, _, rfl, hf, fun hv => by rw [hg hv]; rfl⟩

/-- What erases all that the view leaves out sees one outcome where two end in the same way. -/
theorem viewOutcome_of_outcomes {f : State → State} (hf : ∀ {s t}, v.Alike s t → f s = f t)
    {x y : Host.Outcome State Fault Refusal} (h : v.Outcomes x y) : viewOutcome f x = viewOutcome f y := by
  rcases x with s | ⟨kind, s⟩ | r <;> rcases y with t | ⟨kind', t⟩ | r'
  · exact congrArg Host.Outcome.next (hf h)
  · exact h.elim
  · exact h.elim
  · exact h.elim
  · obtain ⟨rfl, s0, t0, h0, rfl, rfl⟩ := h
    exact congrArg (fun u => Host.Outcome.fault (Fault.raised kind' u)) (hf (h0.entersFaulted kind'))
  · exact h.elim
  · exact h.elim
  · exact h.elim
  · rw [show r' = r from h]

/-! After the operation of a step -/

/-- A dot looks at neither the flags nor the gate (R340). -/
theorem ppuDot_flagsGate (vb : Fin 2) (s : State) (f : Flags) (g : Gate) :
    ppuDot vb { s with flags := f, gate := g } = { ppuDot vb s with flags := f, gate := g } := by
  simp only [ppuDot]
  split_ifs <;> rfl

theorem ppuDots_flagsGate (vb : Fin 2) (n : Nat) (s : State) (f : Flags) (g : Gate) :
    ppuDots vb n { s with flags := f, gate := g } = { ppuDots vb n s with flags := f, gate := g } := by
  induction n generalizing s with
  | zero => rfl
  | succ n ih => rw [ppuDots, ppuDot_flagsGate, ih]; rfl

/-- The bookkeeping and the dots keep states alike (R167, R168). -/
theorem Alike.finishes (vb : Fin 2) (h : v.Alike s t) : v.Alike (finishStep vb s) (finishStep vb t) := by
  obtain ⟨f, gate, rfl, hf, hg⟩ := h
  have hkept : (finishStep vb s).flags = s.flags ∧ (finishStep vb s).gate = s.gate := by
    obtain ⟨_, _, _, _, _, _, h⟩ := finishStep_frame vb s
    rw [h]
    exact ⟨rfl, rfl⟩
  refine ⟨f, gate, ppuDots_flagsGate vb _ (countCycles s) f gate, ?_, ?_⟩
  · rwa [hkept.1]
  · rwa [hkept.2]

/-- A stop that was asked for is the same stop in alike states with one gate (R359). -/
theorem Alike.stops (hv : v.gate = true) (h : v.Alike s t) : v.Alike (applyStop s) (applyStop t) := by
  obtain ⟨f, gate, rfl, hf, hg⟩ := h
  obtain rfl := hg hv
  simp only [applyStop]
  split <;> exact ⟨f, _, rfl, hf, fun _ => rfl⟩

/-- What follows the operation of a step keeps outcomes alike, where the view keeps the gate. -/
theorem outcomes_complete (hv : v.gate = true) (vb : Fin 2) {x y : Host.Outcome State Fault Refusal}
    (h : v.Outcomes x y) : v.Outcomes (complete vb x) (complete vb y) := by
  rcases x with s | ⟨kind, s⟩ | r <;> rcases y with t | ⟨kind', t⟩ | r'
  · exact (Alike.finishes vb h).stops hv
  all_goals exact h

end View

/-! D -/

/-- A flag or register other than A stays where the mnemonic's list does not name it. -/
theorem exec_same {i : Instr} {s t : State} (f : Field) (hf : f ≠ .a) (h : exec i s = .next t)
    (hw : (mnemonicOf i).writes.contains f = false) : f.Same s t :=
  exec_unwritten h f fun hm => by
    rw [List.contains_iff_mem.mpr (mem_mnemonic_writes hf hm)] at hw
    cases hw

/-- D of a byte PLP or RTI pulls is its bit 3, and every other instruction but CLD and SED leaves D alone. -/
theorem exec_d (i : Instr) (s t : State) : exec i s = .next t →
    t.flags.d = match i with
      | .cld => false
      | .sed => true
      | .plp | .rti => (s.ram.read (0x100 + (s.sp + 1).toNat)).getLsbD 3
      | _ => s.flags.d := by
  intro h
  obtain ⟨-, -, -, -, hcld, hsed, -⟩ := flagInstructions
  have hkeep := exec_same .d nofun h
  cases i with
  | cld => rw [(hcld s).2] at h; cases h; rfl
  | sed => rw [(hsed s).2] at h; cases h; rfl
  | plp => rw [exec_plp] at h; cases h; rfl
  | rti => rw [exec_rti] at h; cases h; rfl
  | _ => exact hkeep rfl

/-- The view that looks at everything but D. -/
def withoutD : View := ⟨true, false, true⟩

theorem alike_eraseD (s : State) : withoutD.Alike s s.eraseD :=
  ⟨s.eraseD.flags, s.gate, rfl, ⟨s.flags.b, false, rfl, fun _ => rfl, nofun⟩, fun _ => rfl⟩

theorem eraseD_of_alike {s t : State} (h : withoutD.Alike s t) : s.eraseD = t.eraseD := by
  obtain ⟨_, gate, rfl, ⟨b, d, rfl, hb, -⟩, hg⟩ := h
  obtain rfl := hb rfl
  obtain rfl := hg rfl
  rfl

/-- Settles O56: the writers of D (`exec_d`), the closed answer of an interrupt entry, and two runs side by side in the view
without D (`View.outcomes_exec`). -/
theorem decimalFlagIsIgnored : Obligations.DecimalFlagIsIgnored := by
  refine ⟨exec_d, fun vec hvec s t h => ?_, fun i s hphp hbrk => ?_⟩
  · rw [interruptEntry_vector hvec] at h
    cases h
    rfl
  · exact View.viewOutcome_of_outcomes eraseD_of_alike
      (View.outcomes_exec (fun h => (h.elim hphp hbrk).elim) (alike_eraseD s))

/-! The stored B -/

/-- The stored B of a byte PLP or RTI pulls is its bit 4, and every other instruction leaves it alone. -/
theorem exec_b (i : Instr) (s t : State) : exec i s = .next t →
    t.flags.b = match i with
      | .plp | .rti => (s.ram.read (0x100 + (s.sp + 1).toNat)).getLsbD 4
      | _ => s.flags.b := by
  intro h
  have hkeep := exec_same .b nofun h
  cases i with
  | plp => rw [exec_plp] at h; cases h; rfl
  | rti => rw [exec_rti] at h; cases h; rfl
  | _ => exact hkeep rfl

/-- The view that looks at everything but the stored B. -/
def withoutB : View := ⟨false, true, true⟩

theorem alike_eraseB (s : State) : withoutB.Alike s s.eraseB :=
  ⟨s.eraseB.flags, s.gate, rfl, ⟨false, s.flags.d, rfl, nofun, fun _ => rfl⟩, fun _ => rfl⟩

theorem eraseB_of_alike {s t : State} (h : withoutB.Alike s t) : s.eraseB = t.eraseB := by
  obtain ⟨_, gate, rfl, ⟨b, d, rfl, -, hd⟩, hg⟩ := h
  obtain rfl := hd rfl
  obtain rfl := hg rfl
  rfl

/-- The state of a gate's answer looked at through `f`. -/
def GateAnswer.view (f : State → State) : GateAnswer → GateAnswer
  | .pass s => .pass (f s)
  | .hold s => .hold (f s)

/-- The gate does not look at the stored B (R355). -/
theorem runGate_eraseB (s : State) : runGate s.eraseB = (runGate s).view State.eraseB := by
  simp only [runGate, show breaksHere s.eraseB = breaksHere s from rfl, show publish s.eraseB = publish s from rfl]
  split
  · split
    · rfl
    · split <;> rfl
  · rfl

/-- A step of a state and of the same state with B erased, B apart. -/
theorem step_eraseB (s : State) : viewOutcome State.eraseB (step s) = viewOutcome State.eraseB (step s.eraseB) := by
  simp only [step, stepWith, show s.eraseB.status = s.status from rfl, runGate_eraseB]
  split
  · rfl
  · rfl
  · cases runGate s with
    | hold u => rfl
    | pass u =>
      exact View.viewOutcome_of_outcomes eraseB_of_alike
        (View.outcomes_complete rfl Config.vblankDot (View.outcomes_serviceOrExecute rfl (alike_eraseB u)))

/-- Settles O57: the writers of the stored B (`exec_b`), the closed answer of an interrupt entry, and two runs side by side in
the view without it, over the gate, the operation and the bookkeeping of a step (`step_eraseB`). -/
theorem storedBreakFlagIsInvisible : Obligations.StoredBreakFlagIsInvisible := by
  refine ⟨exec_b, fun vec hvec s t h => ?_, step_eraseB⟩
  rw [interruptEntry_vector hvec] at h
  cases h
  rfl

/-! The debug gate -/

/-- The view that looks at everything but the gate. -/
def withoutGate : View := ⟨true, true, false⟩

theorem eraseGate_of_alike {s t : State} (h : withoutGate.Alike s t) : s.eraseGate = t.eraseGate := by
  obtain ⟨_, gate, rfl, ⟨b, d, rfl, hb, hd⟩, -⟩ := h
  obtain rfl := hb rfl
  obtain rfl := hd rfl
  rfl

/-- The operation of a step leaves the gate alone, and no stop comes of it (R359). -/
theorem applyStop_after_service {s u : State} (vb : Fin 2) (hs : s.gate.stopRequested = false)
    (h : serviceOrExecute s = .next u) : applyStop (finishStep vb u) = finishStep vb u := by
  have hk := (kept_frame s).service (fun h => h) ⟨rfl, rfl, rfl, rfl, rfl, rfl⟩
  rw [h] at hk
  obtain ⟨-, -, -, -, hgate, -⟩ := hk
  have hfinish : (finishStep vb u).gate = s.gate := by
    obtain ⟨_, _, _, _, _, _, hf⟩ := finishStep_frame vb u
    rw [hf]
    exact hgate
  rw [applyStop, hfinish, hs]
  rfl

/-- What follows the operation of a step keeps outcomes alike, where neither gate asks for a stop. -/
theorem outcomes_complete_noStop {s t : State} (vb : Fin 2) (hs : s.gate.stopRequested = false)
    (ht : t.gate.stopRequested = false) (h : withoutGate.Alike s t) :
    withoutGate.Outcomes (complete vb (serviceOrExecute s)) (complete vb (serviceOrExecute t)) := by
  have ho := View.outcomes_serviceOrExecute rfl h
  cases hx : serviceOrExecute s with
  | next u =>
    cases hy : serviceOrExecute t with
    | next w =>
      rw [hx, hy] at ho
      simp only [complete, applyStop_after_service vb hs hx, applyStop_after_service vb ht hy]
      exact View.Alike.finishes vb ho
    | fault e => rw [hx, hy] at ho; exact ho
    | refused r => rw [hx, hy] at ho; exact ho
  | fault e => cases hy : serviceOrExecute t <;> rw [hx, hy] at ho <;> exact ho
  | refused r => cases hy : serviceOrExecute t <;> rw [hx, hy] at ho <;> exact ho

/-- The step after a gate's answer (R169). -/
def GateAnswer.goesOn : GateAnswer → Host.Outcome State Fault Refusal
  | .hold u => .next u
  | .pass u => complete Config.vblankDot (serviceOrExecute u)

/-- A running core's step is what follows its gate's answer. -/
theorem step_of_running {s : State} (hrun : s.status = .running) : step s = (runGate s).goesOn := by
  simp only [step, stepWith, hrun]
  cases runGate s <;> rfl

/-- A step of a running core whose gate breaks, by what the host has asked for (R355, R359). -/
theorem step_breaks {s : State} (hrun : s.status = .running) (hb : breaksHere s = true) :
    let published := if s.gate.waiting then s.gate.published else ⟨s.pc, none⟩ :: s.gate.published
    if s.gate.stopRequested = true then
      step s = .next { s with
        gate := { s.gate with waiting := false, stopRequested := false, published := published }, status := .stopped }
    else
      match s.gate.signals with
      | [] => step s = .next { s with gate := { s.gate with waiting := true, published := published } }
      | .stop :: rest => step s = .next { s with
          gate := { s.gate with waiting := false, signals := rest, published := published }, status := .stopped }
      | sig :: rest => step s = complete Config.vblankDot (serviceOrExecute { s with
          gate := { s.gate with
            first := false, waiting := false, signals := rest, stepping := decide (sig = .next), published := published } }) := by
  intro published
  simp only [step_of_running hrun, runGate, hb, if_true, publish_eq]
  by_cases hstop : s.gate.stopRequested = true
  · simp only [if_pos hstop]
    rfl
  · simp only [if_neg hstop]
    rcases hsig : s.gate.signals with _ | ⟨sig, rest⟩
    · rfl
    · cases sig <;> rfl

/-- Settles O58: where neither gate breaks the two runs are side by side in the view without the gate; where the gate breaks,
its answer is read off by cases (`step_breaks`). -/
theorem debugGateIsInvisible : Obligations.DebugGateIsInvisible := by
  refine ⟨fun s g hs hg hstop hgstop => ?_, fun s hrun hb => step_breaks hrun hb⟩
  rw [step_goes hs, step_goes hg]
  exact View.viewOutcome_of_outcomes eraseGate_of_alike
    (outcomes_complete_noStop Config.vblankDot hstop hgstop
      ⟨s.flags, { g with first := false }, rfl, ⟨s.flags.b, s.flags.d, rfl, fun _ => rfl, fun _ => rfl⟩, nofun⟩)

end Sys2Proof.Machine
end

section
/-! The step's bookkeeping (40_step.md R160, R167, R168; 60_exceptions.md R331–R340): the invariant, the count of cycles, the
priority of the interrupts, and the host's side of a run (R357–R359). -/

namespace Sys2Proof.Machine

/-! The invariant -/

/-- The gate and `status` are no part of the invariant. -/
theorem inv_gateStatus (s : State) (g : Gate) (r : RunStatus) : ({ s with gate := g, status := r } : State).inv = s.inv := rfl

theorem applyStop_frame (s : State) : ∃ gate status, applyStop s = { s with gate := gate, status := status } := by
  simp only [applyStop]
  split
  · exact ⟨_, _, rfl⟩
  · exact ⟨s.gate, s.status, rfl⟩

/-- The bookkeeping makes `odd` the parity of `cycles`, whatever it was, and the dots keep the rest of the invariant. -/
theorem finishStep_inv (vb : Fin 2) {s : State} (h : s.busInv) : (finishStep vb s).inv = true := by
  rw [inv_iff]
  refine ⟨ppuDots_busInv vb _ (s := countCycles s) h, ?_⟩
  obtain ⟨_, _, _, _, _, _, hf⟩ := finishStep_frame vb s
  rw [hf]
  rfl

/-- Settles O6: the operation of a step keeps the memories and the counters (`kept_busInv`) and, where it faults, the parity
(`kept_frame`); the bookkeeping of a step that completes makes the parity anew (`finishStep_inv`). -/
theorem stepKeepsInvariant : Obligations.StepKeepsInvariant := by
  intro s t hs h
  have hbus : ∀ gate, ({ s with gate := gate } : State).busInv := fun _ => ((inv_iff s).mp hs).1
  rcases h with h | ⟨kind, h⟩
  · obtain ⟨-, ⟨gate, status, rfl⟩ | ⟨gate, u, hu, rfl⟩⟩ := step_next h
    · exact hs
    · have hk := kept_busInv.service (fun h => h) (hbus gate)
      rw [hu] at hk
      obtain ⟨g, r, hstop⟩ := applyStop_frame (finishStep Config.vblankDot u)
      rw [hstop, inv_gateStatus]
      exact finishStep_inv _ hk
  · obtain ⟨-, rfl⟩ | ⟨-, gate, hu⟩ := step_fault h
    · exact hs
    · have hparity := ((inv_iff s).mp hs).2
      have hkept := Kept.service (P := fun u => u.busInv ∧ u.odd = (u.cycles % 2 == 1))
        { core := fun _ _ _ _ _ _ _ h => h
          read := fun hr h => ⟨memRead_busInv hr h.1, by rw [(memRead_core_kept hr).1]; exact h.2⟩
          write := fun hw h => ⟨memWrite_busInv hw h.1, by rw [(memWrite_core_kept hw).1]; exact h.2⟩
          oam := fun _ b hi h => ⟨oamWrite_busInv b h.1 hi, h.2⟩ }
        (fun h => h) (s := { s with gate := gate }) ⟨hbus gate, hparity⟩
      rw [hu] at hkept
      obtain ⟨u, ⟨hb, hp⟩, rfl⟩ := hkept
      exact (inv_iff _).mpr ⟨enterFaulted_busInv kind hb, hp⟩

/-! The count of cycles -/

/-- A step of a core that goes and completes: the operation behind its gate completed, and the bookkeeping followed. -/
theorem step_goes_next {s t : State} (hs : s.goes = true) (h : step s = .next t) :
    ∃ u, serviceOrExecute s.passGate = .next u ∧ t = applyStop (finishStep Config.vblankDot u) := by
  rw [step_goes hs] at h
  cases hu : serviceOrExecute s.passGate with
  | next u => rw [hu] at h; exact ⟨u, rfl, (Host.Outcome.next.inj h).symm⟩
  | fault e => rw [hu] at h; cases h
  | refused r => rw [hu] at h; cases h

/-- The operation of a step that completes keeps what every instruction keeps, but for the latch it may clear. -/
theorem service_kept {P : State → Prop} (hk : Kept P) (hl : ∀ {u : State}, P u → P (u.setNmiLatch false)) {s u : State}
    (hp : P s) (h : serviceOrExecute s = .next u) : P u := by
  have := hk.service hl hp
  rwa [h] at this

/-- Settles O12: the operation of a step leaves the count and the position (`kept_frame`, `kept_position`); the bookkeeping adds
its cycles, and the dots move the position (`ppuDots_position`). -/
theorem stepCountsCycles : Obligations.StepCountsCycles := by
  intro s t hs hscanline hdot h
  obtain ⟨u, hu, rfl⟩ := step_goes_next hs h
  obtain ⟨-, -, hcycles, -⟩ := service_kept (kept_frame s.passGate) (fun h => h) ⟨rfl, rfl, rfl, rfl, rfl, rfl⟩ hu
  obtain ⟨hsl, hd⟩ := service_kept (kept_position s.passGate) (fun h => h) ⟨rfl, rfl⟩ hu
  have hcycles : u.cycles = s.cycles := hcycles
  have hsl : u.ppu.scanline = s.ppu.scanline := hsl
  have hd : u.ppu.dot = s.ppu.dot := hd
  obtain ⟨hpos, -, -⟩ := ppuDots_position Config.vblankDot (3 * u.stepCycles) (countCycles u) (hsl ▸ hscanline) (hd ▸ hdot)
  obtain ⟨g, r, hstop⟩ := applyStop_frame (finishStep Config.vblankDot u)
  rw [hstop]
  obtain ⟨_, _, _, _, _, _, hf⟩ := finishStep_frame Config.vblankDot u
  refine ⟨?_, ?_, ?_⟩
  · rw [hf, ← hcycles]
    rfl
  · rw [hf]
    exact beq_eq_decide ..
  · have hsteps : (finishStep Config.vblankDot u).stepCycles = u.stepCycles := by rw [hf]; rfl
    have hstart : (countCycles u).ppu.position = s.ppu.position := by
      rw [Ppu.position, Ppu.position, ← hsl, ← hd]
      rfl
    rw [hsteps, ← hstart]
    exact hpos

/-! Interrupts -/

/-- Settles O16: a core that goes passes its gate (`step_goes`), and the entry has a closed answer, its vector read as
`observeWord_prg` says; where no interrupt is due the step executes (`step_executes`). -/
theorem interruptEntryAndPriority : Obligations.InterruptEntryAndPriority := by
  intro s hs
  refine ⟨fun hnmi => ?_, fun hnmi hirq => ?_, fun hnmi hirq => step_executes hs hnmi hirq⟩
  · rw [step_goes hs, observeWord_prg s (by decide) (by decide), serviceOrExecute,
      if_pos (show s.passGate.nmiLatch = true from hnmi), interruptEntry_vector (by simp)]
    rfl
  · have hlatch : ¬ s.passGate.nmiLatch = true := by
      rw [show s.passGate.nmiLatch = false from hnmi]
      simp
    rw [step_goes hs, observeWord_prg s (by decide) (by decide), serviceOrExecute,
      if_neg hlatch, if_pos (show (s.passGate.irqLine && !s.passGate.flags.i) = true from hirq),
      interruptEntry_vector (by simp)]
    rfl

/-- What a faulting step of a core that goes leaves has what its operation keeps, with the end of the run on top (R320). -/
theorem step_goes_fault {P : State → Prop} (hk : Kept P) (hl : ∀ {u : State}, P u → P (u.setNmiLatch false)) {s t : State}
    {kind : FaultKind} (hs : s.goes = true) (hp : P s.passGate) (h : step s = .fault (.raised kind t)) :
    ∃ u, P u ∧ t = enterFaulted kind u := by
  have hkept := hk.service hl hp
  rw [step_goes hs] at h
  cases hu : serviceOrExecute s.passGate with
  | next u => rw [hu] at h; cases h
  | fault e =>
    rw [hu] at h hkept
    cases h
    exact hkept
  | refused r => rw [hu] at h; cases h

/-- What every operation keeps, the position of the PPU among it. -/
theorem kept_frame_position (s0 : State) : Kept fun s =>
    (s.irqLine = s0.irqLine ∧ s.odd = s0.odd ∧ s.cycles = s0.cycles ∧ s.status = s0.status ∧ s.gate = s0.gate ∧
      s.cart = s0.cart) ∧ s.ppu.scanline = s0.ppu.scanline ∧ s.ppu.dot = s0.ppu.dot where
  core := fun _ _ _ _ _ _ _ h => h
  read := fun hr h => ⟨(kept_frame s0).read hr h.1, (kept_position s0).read hr h.2⟩
  write := fun hw h => ⟨(kept_frame s0).write hw h.1, (kept_position s0).write hw h.2⟩
  oam := fun _ _ _ h => h

/-! The host, and a core that takes no step -/

/-- `add_break` adds to BREAKS as to a set (R358). -/
theorem mem_addBreak (a b : Word) (l : List Word) : b ∈ addBreak a l ↔ b = a ∨ b ∈ l := by
  induction l with
  | nil => simp [addBreak]
  | cons c rest ih =>
    simp only [addBreak]
    split_ifs with hlt heq
    · simp
    · simp [heq]
    · simp only [List.mem_cons, ih]
      tauto

/-- A stop that was asked for and had no gate to stop at stops the core once the step is complete (R359). -/
theorem status_applyStop {s : State} (h : s.gate.stopRequested = true) : (applyStop s).status = .stopped := by
  rw [applyStop, if_pos h]
  rfl

/-- The bookkeeping leaves the gate alone. -/
theorem finishStep_gate (vb : Fin 2) (s : State) : (finishStep vb s).gate = s.gate := by
  obtain ⟨_, _, _, _, _, _, h⟩ := finishStep_frame vb s
  rw [h]
  rfl

/-- The next step of a running core that a stop was asked of stops it (R359). -/
theorem step_stopRequested {s t : State} (hrun : s.status = .running) (hstop : s.gate.stopRequested = true)
    (h : step s = .next t) : t.status = .stopped := by
  by_cases hb : breaksHere s = true
  · have hbreak := step_breaks hrun hb
    simp only [if_pos hstop] at hbreak
    rw [hbreak] at h
    obtain rfl := Host.Outcome.next.inj h
    rfl
  · have hs : s.goes = true := by simp [State.goes, hrun, hb]
    obtain ⟨u, hu, rfl⟩ := step_goes_next hs h
    obtain ⟨-, -, -, -, hgate, -⟩ := service_kept (kept_frame s.passGate) (fun h => h) ⟨rfl, rfl, rfl, rfl, rfl, rfl⟩ hu
    refine status_applyStop ?_
    rw [finishStep_gate, hgate]
    exact hstop

/-- A stop at a waiting gate (R359). -/
theorem hostStop_of_waiting {s : State} (hrun : s.status = .running) (hw : s.gate.waiting = true) :
    hostStop s = (s.setGate { s.gate with waiting := false }).setStatus .stopped := by
  rw [hostStop, if_neg (not_not_intro hrun), if_pos hw]

/-- A stop where no gate waits (R359). -/
theorem hostStop_of_not_waiting {s : State} (hrun : s.status = .running) (hw : ¬ s.gate.waiting = true) :
    hostStop s = s.setGate { s.gate with stopRequested := true } := by
  rw [hostStop, if_neg (not_not_intro hrun), if_neg hw]

/-- A second stop changes nothing (R359). -/
theorem hostStop_idem {s : State} (hrun : s.status = .running) : hostStop (hostStop s) = hostStop s := by
  by_cases hw : s.gate.waiting = true
  · rw [hostStop_of_waiting hrun hw]
    rfl
  · rw [hostStop_of_not_waiting hrun hw]
    exact hostStop_of_not_waiting (s := s.setGate { s.gate with stopRequested := true }) hrun hw

/-- Settles O59: the edits of BREAKS by `mem_addBreak` and the filter's own law, the stop by cases of the gate
(`step_stopRequested`), what a fault leaves by the frame of every operation and `enterFaulted`, and the halted core by the first
case of the step. -/
theorem hostOperationsAndHaltedCore : Obligations.HostOperationsAndHaltedCore := by
  refine ⟨fun a b s => ⟨mem_addBreak a b _, ?_, rfl, rfl, rfl, rfl⟩, fun s hrun => ⟨fun hw => ?_, fun t h => ?_, hostStop_idem hrun⟩,
    fun s t kind hs h => ?_, fun s => ⟨fun kind hk => ?_, fun hk => ?_⟩⟩
  · simp only [hostListBreaks, hostRemoveBreak, State.setGate_gate, List.mem_filter, bne_iff_ne]
    tauto
  · rw [hostStop_of_waiting hrun hw]
    rfl
  · by_cases hw : s.gate.waiting = true
    · rw [hostStop_of_waiting hrun hw] at h
      cases h
    · rw [hostStop_of_not_waiting hrun hw] at h
      exact step_stopRequested (s := s.setGate { s.gate with stopRequested := true }) hrun rfl h
  · obtain ⟨u, ⟨⟨-, hodd, hcycles, -, hgate, -⟩, hsl, hdot⟩, rfl⟩ := step_goes_fault (kept_frame_position s.passGate)
      (fun h => h) hs ⟨⟨rfl, rfl, rfl, rfl, rfl, rfl⟩, rfl, rfl⟩ h
    refine ⟨rfl, hcycles, hodd, ?_, ?_⟩
    · simp only [enterFaulted_eq, Ppu.position, hsl, hdot]
      rfl
    · simp only [enterFaulted_eq, hgate]
      rfl
  · simp only [step, stepWith, hk]
  · simp only [step, stepWith, hk]

end Sys2Proof.Machine
end

section
/-! The bus by the address (20_memory.md R60–R65, R66–R78, R85–R94): which device answers an access, the PPU's ports, the
controller, the cartridge's side, and what a read can change. -/

namespace Sys2Proof.Machine

/-! Which device answers -/

/-- From $2000 to $3FFF the PPU's port of the address modulo 8 answers a read (R60, R64). -/
theorem memRead_port {a : Word} (s : State) (h1 : 0x2000 ≤ a.toNat) (h2 : a.toNat < 0x4000) :
    memRead a s = portRead (a.toNat % 8) s := by
  rw [memRead, if_neg (by omega), if_pos (by omega)]

/-- From $2000 to $3FFF a write goes to the PPU's port of the address modulo 8 (R61, R64). -/
theorem memWrite_port {a : Word} (d : Byte) (s : State) (h1 : 0x2000 ≤ a.toNat) (h2 : a.toNat < 0x4000) :
    memWrite a d s = (portWrite (a.toNat % 8) d s >>= fun t => .ok (0, t)) := by
  rw [memWrite, if_neg (by omega), if_pos (by omega)]

/-- From $4020 on the cartridge answers a read (R60, R90). -/
theorem memRead_cart {a : Word} (s : State) (h : 0x4020 ≤ a.toNat) :
    memRead a s = (cartRead a s >>= fun b => .ok (b, s)) := by
  rw [memRead, if_neg (by omega), if_neg (by omega), if_neg (by omega), if_neg (by omega), if_neg (by omega),
    if_neg (by omega)]

/-- From $4020 on a write goes to the cartridge (R61, R90). -/
theorem memWrite_cart {a : Word} (d : Byte) (s : State) (h : 0x4020 ≤ a.toNat) :
    memWrite a d s = (cartWrite a d s >>= fun t => .ok (0, t)) := by
  rw [memWrite, if_neg (by omega), if_neg (by omega), if_neg (by omega), if_neg (by omega), if_neg (by omega),
    if_neg (by omega)]

theorem memRead_ppuPort {a : Word} {k : Nat} (s : State) (h : isPpuPort a k) : memRead a s = portRead k s := by
  obtain ⟨h1, h2, rfl⟩ := h
  exact memRead_port s h1 h2

theorem memWrite_ppuPort {a : Word} {k : Nat} (d : Byte) (s : State) (h : isPpuPort a k) :
    memWrite a d s = (portWrite k d s >>= fun t => .ok (0, t)) := by
  obtain ⟨h1, h2, rfl⟩ := h
  exact memWrite_port d s h1 h2

/-! Mirrors and holes -/

theorem portMask_toNat (a : Word) : (a &&& 7).toNat = a.toNat % 8 :=
  BitVec.toNat_and .. |>.trans (Nat.and_two_pow_sub_one_eq_mod a.toNat 3)

/-- The first mirror of a port is its own address (R64). -/
theorem firstMirror_toNat (a : Word) : (0x2000 + (a &&& 7) : Word).toNat = 0x2000 + a.toNat % 8 := by
  have := portMask_toNat a
  have := a.isLt
  bv_omega

/-- A write-only port's read faults with its first mirror (R77). -/
theorem portRead_writeOnly {a : Word} (s : State) (h : (a &&& 7) ∈ [(0 : Word), 1, 3, 5, 6]) :
    portRead (a.toNat % 8) s = .error (.raised (.invalidMmioRead (0x2000 + (a &&& 7))) s) := by
  rw [← portMask_toNat]
  generalize a &&& 7 = k at h
  simp only [List.mem_cons, List.not_mem_nil, or_false] at h
  rcases h with rfl | rfl | rfl | rfl | rfl <;> rfl

/-- The addresses of the I/O range with no device of this machine read 0 and ignore writes (R87). -/
theorem ioHole_silent {a : Word} (d : Byte) (s : State)
    (h : (0x4000 ≤ a.toNat ∧ a.toNat ≤ 0x4013) ∨ a = 0x4015 ∨ a = 0x4017) :
    memRead a s = .ok (0, s) ∧ memWrite a d s = .ok (0, s) := by
  rcases h with ⟨h1, h2⟩ | rfl | rfl
  · rw [memRead, memWrite]
    constructor <;> rw [if_neg (by omega), if_neg (by omega), if_neg (by omega), if_neg (by omega), if_pos (by omega)]
  · exact ⟨rfl, rfl⟩
  · exact ⟨rfl, rfl⟩

/-- Settles O21: an access of a mirror is an access of the port (`memRead_port`, `memWrite_port`), and the rest of the I/O
range is read off the bus. -/
theorem portMirrorsAndIoHoles : Obligations.PortMirrorsAndIoHoles := by
  intro a d s
  refine ⟨fun h1 h2 => ?_, fun h => ?_, ?_, fun h1 h2 => ?_, ioHole_silent d s⟩
  · have hm := firstMirror_toNat a
    have hmod : (0x2000 + a.toNat % 8) % 8 = a.toNat % 8 := by omega
    refine ⟨?_, ?_, fun h => ?_⟩
    · rw [memRead_port s h1 h2, memRead_port s (by omega) (by omega), hm, hmod]
    · rw [memWrite_port d s h1 h2, memWrite_port d s (by omega) (by omega), hm, hmod]
    · rw [memRead_port s h1 h2, portRead_writeOnly s h]
  · rw [memWrite_ppuPort d s h]
    rfl
  · rintro rfl
    rfl
  · rw [memRead, memWrite]
    constructor <;>
      rw [if_neg (by omega), if_neg (by omega), if_neg (by omega), if_neg (by omega), if_neg (by omega), if_pos (by omega)]

/-! PPU ports -/

/-- Settles O22: the write of the port, the toggle by cases. -/
theorem ppuRegisterWrites : Obligations.PpuRegisterWrites := by
  intro a d s
  refine ⟨fun h => ?_, fun h => ?_, fun h => ?_, fun h => ?_, fun h => ?_⟩ <;> rw [memWrite_ppuPort d s h]
  · rfl
  · rfl
  · rfl
  · cases hw : s.ppu.w <;> simp only [portWrite, writePpuScroll, hw, ok_bind] <;> rfl
  · cases hw : s.ppu.w <;> simp only [portWrite, writePpuAddr, hw, ok_bind, mkWord_eq_ofNat] <;> rfl

/-- Settles O23: the free bits are the next value of DRAW, whatever it is. -/
theorem ppuStatusPort : Obligations.PpuStatusPort := by
  intro a s h
  refine ⟨⟨Config.draw s.draws, ?_⟩, fun d => ?_⟩
  · rw [memRead_ppuPort s h]
    rfl
  · rw [memWrite_ppuPort d s h]
    rfl

/-- Settles O24: OAM reads what was written, at the address written alone (`Memory.read_write`). -/
theorem oamDataPort : Obligations.OamDataPort := by
  intro a s h
  refine ⟨memRead_ppuPort s h, fun d => ⟨writeOamData d s, ?_, rfl, fun i _ => Memory.read_write ..⟩⟩
  rw [memWrite_ppuPort d s h]
  rfl

/-- A write of the PPU's address space changes CHR-RAM, CIRAM and palette alone (R80). -/
theorem ppuWrite_frame {a : Nat} {d : Byte} {s t : State} (h : ppuWrite a d s = .ok t) :
    t = { s with chrRam := t.chrRam, ppu := { s.ppu with ciram := t.ppu.ciram, pal := t.ppu.pal } } := by
  simp only [ppuWrite, chrWrite] at h
  split_ifs at h <;> (obtain rfl := Except.ok.inj h; rfl)

/-- Settles O25: the buffered and the palette read by cases of the address, the write by cases of the PPU's own write. -/
theorem ppuDataPort : Obligations.PpuDataPort := by
  intro a s h va next
  refine ⟨?_, fun d => ?_⟩
  · rw [memRead_ppuPort s h, portRead, readPpuData]
    by_cases hpal : 0x3F00 ≤ va
    · simp only [if_pos hpal]
      exact congrArg Except.ok (if_pos hpal)
    · simp only [if_neg hpal]
      exact congrArg Except.ok (if_neg hpal)
  · have hport : memWrite a d s = ((ppuWrite va d s >>= fun t =>
        .ok (t.setPpu { t.ppu with v := t.ppu.v + vramIncrement t.ppu })) >>= fun t => .ok (0, t)) := memWrite_ppuPort d s h
    rw [hport]
    cases hw : ppuWrite va d s with
    | error e => rfl
    | ok t =>
      have hv : t.ppu.v + vramIncrement t.ppu = next := by
        rw [ppuWrite_frame hw]
        rfl
      simp only [ok_bind, hv]
      rfl

/-! The controller -/

/-- Settles O27: the write resets the pointer where strobe is clear; the read shifts out the buttons that the host holds or
that are drawn. -/
theorem controllerPort : Obligations.ControllerPort := by
  have hread : ∀ s : State, memRead 0x4016 s = .ok (controllerRead s) := fun _ => rfl
  refine fun s => ⟨fun d => ?_, fun hp => ?_, fun b hb hp => ?_, fun hb hp => ⟨(Config.buttons s.draws).getLsbD s.pad.ptr, ?_⟩⟩
  · cases hd : d.getLsbD 0 <;>
      exact congrArg (fun p => Except.ok (0, s.setPad p)) (by simp only [hd]; rfl)
  · rw [hread, controllerRead, if_neg (by omega)]
  · rw [hread, controllerRead, if_pos hp]
    simp only [buttonStates, hb]
    rfl
  · rw [hread, controllerRead, if_pos hp]
    simp only [buttonStates, hb]
    rfl

/-! The cartridge -/

/-- The RAM at $6000–$7FFF, where the cartridge has it (R93, R104). -/
theorem cartRam_access {a : Word} (d : Byte) {s : State} (hram : hasCartRam s.cart = true) (h1 : 0x6000 ≤ a.toNat)
    (h2 : a.toNat < 0x8000) :
    memRead a s = .ok (s.cartRam.read (a.toNat - 0x6000), s) ∧
      memWrite a d s = .ok (0, s.setCartRam (s.cartRam.write (a.toNat - 0x6000) d)) := by
  rw [memRead_cart s (by omega), memWrite_cart d s (by omega), cartRead, cartWrite]
  constructor <;> rw [if_neg (by omega), if_pos ⟨h1, hram⟩] <;> rfl

/-- As the statements write it. -/
theorem cartRam_spec {a : Word} (d : Byte) {s : State} (hram : hasCartRam s.cart = true) (h1 : 0x6000 ≤ a.toNat)
    (h2 : a.toNat < 0x8000) :
    memRead a s = .ok (s.cartRam.read (a.toNat - 0x6000), s) ∧
      ∃ t, memWrite a d s = .ok (0, t) ∧ t = { s with cartRam := t.cartRam } ∧
        ∀ i, t.cartRam.read i = if i = a.toNat - 0x6000 then d else s.cartRam.read i := by
  obtain ⟨hr, hw⟩ := cartRam_access d hram h1 h2
  exact ⟨hr, _, hw, rfl, fun i => Memory.read_write ..⟩

/-- Below $8000, where the cartridge has no RAM, it answers nothing (R65, R93). -/
theorem cartHole_faults {a : Word} (d : Byte) {s : State} (h1 : 0x4020 ≤ a.toNat) (h2 : a.toNat < 0x8000)
    (hno : ¬ (0x6000 ≤ a.toNat ∧ hasCartRam s.cart = true)) :
    memRead a s = .error (.raised (.unmappedAddress a) s) ∧ memWrite a d s = .error (.raised (.unmappedAddress a) s) := by
  rw [memRead_cart s h1, memWrite_cart d s h1, cartRead, cartWrite]
  constructor <;> rw [if_neg (by omega), if_neg hno] <;> rfl

/-- Settles O28: the PRG page of NROM, its optional RAM (`cartRam_spec`) and the holes (`cartHole_faults`). -/
theorem nromAccesses : Obligations.NromAccesses := by
  intro a d s hm
  have hram : hasCartRam s.cart = s.cart.nromSram := by rw [hasCartRam, hm]
  refine ⟨fun h => ⟨?_, ?_⟩, fun h1 h2 => ?_, fun h1 h2 => cartHole_faults d h1 (by omega) (by omega), ?_⟩
  · rw [memRead_prg s h, prgOffset, prgPage, hm]
  · rw [memWrite_cart d s (by omega), cartWrite, if_pos h, hm]
    rfl
  · split
    · next hs => exact cartRam_spec d (hram.trans hs) h1 h2
    · next hs => exact cartHole_faults d (by omega) h2 fun h => hs (hram.symm.trans h.2)
  · unfold mirroring
    exact hm ▸ rfl

/-- The masks that MMC1's bank registers are read through, as arithmetic (R100, R101). -/
theorem bankMask_toNat (p : Five) : (p &&& 0x0F).toNat = p.toNat % 16 ∧ (p &&& 0x0E).toNat = p.toNat % 16 / 2 * 2 := by
  revert p
  decide

/-- The bank map of the model and that of the statements (R100–R102). -/
theorem mmc1PrgPage_eq (m : Mmc1) (pages : Nat) {a : Nat} (h : 0x8000 ≤ a) (h' : a < 0x10000) :
    mmc1PrgPage m pages a = mmc1Page m pages a := by
  obtain ⟨hF, hE⟩ := bankMask_toNat m.prg
  have hhalf : (a - 0x8000) / 16384 = if 0xC000 ≤ a then 1 else 0 := by split <;> omega
  simp only [mmc1PrgPage, mmc1Page, hF, hE, hhalf]
  cases m.booted <;> cases m.control.getLsbD 2 <;> cases m.control.getLsbD 3 <;> by_cases hu : 0xC000 ≤ a <;>
    simp [hu, show a < 0xC000 ↔ ¬ 0xC000 ≤ a by omega]

/-- Settles O31: the bank map (`mmc1PrgPage_eq`), the RAM that is always there (`cartRam_spec`) and the hole below it. -/
theorem mmc1Accesses : Obligations.Mmc1Accesses := by
  intro a d s hm
  have hram : hasCartRam s.cart = true := by rw [hasCartRam, hm]
  refine ⟨fun h => ?_, fun h1 h2 => cartRam_spec d hram h1 h2, fun h1 h2 => cartHole_faults d h1 (by omega) (by omega), ?_⟩
  · rw [memRead_prg s h, prgOffset, prgPage, hm]
    simp only [mmc1PrgPage_eq s.mmc1 s.cart.prgPages h a.isLt]
  · have hmask : ∀ c : Five, (c &&& 3).toNat = c.toNat % 4 := by decide
    unfold mirroring
    rw [hmask]
    exact hm ▸ rfl

theorem serialBit_eq (d : Byte) : serialBit d = (d &&& 1).setWidth 5 := by
  revert d
  decide

/-- The register that a serial write's address selects (R98). -/
theorem mmc1Commit_eq {a : Nat} (h : 0x8000 ≤ a) (h' : a < 0x10000) (val : Five) (m : Mmc1) :
    mmc1Commit a val m =
      if a < 0xA000 then { m with control := val, booted := true }
      else if a < 0xC000 then { m with chr0 := val }
      else if a < 0xE000 then { m with chr1 := val }
      else { m with prg := val } := by
  split_ifs with h1 h2 h3
  · simp only [mmc1Commit, show a / 8192 % 4 = 0 by omega]
  · simp only [mmc1Commit, show a / 8192 % 4 = 1 by omega]
  · simp only [mmc1Commit, show a / 8192 % 4 = 2 by omega]
  · simp only [mmc1Commit, show a / 8192 % 4 = 3 by omega]

/-- Settles O29: the write changes MMC1 alone (`memWrite_serial`), by cases of bit 7 and the count. -/
theorem mmc1SerialWrite : Obligations.Mmc1SerialWrite := by
  intro a d s hm ha hcount
  refine ⟨_, memWrite_serial d hm ha, rfl, fun h7 => ?_, fun h7 hc => ?_, fun h7 hc => ?_⟩
  · simp only [State.setMmc1_mmc1, mmc1Write, if_pos h7]
  · rw [← serialBit_eq]
    exact mmc1Write_load a.toNat h7 rfl hc
  · rw [← serialBit_eq]
    exact (mmc1Write_commit a.toNat h7 hc).trans (mmc1Commit_eq ha a.isLt _ _)

/-! What a read changes -/

/-- Away from PPUSTATUS, PPUDATA and the controller a read changes nothing (R53). -/
theorem memRead_quiet {a : Word} {s t : State} {d : Byte} (h : memRead a s = .ok (d, t))
    (hq : readHasSideEffect a = false) : t = s := by
  by_cases hport : 0x2000 ≤ a.toNat ∧ a.toNat < 0x4000
  · rw [memRead_port s hport.1 hport.2] at h
    have hp2 : a.toNat % 8 ≠ 2 := fun hp => by simp [readHasSideEffect, hport, hp] at hq
    have hp7 : a.toNat % 8 ≠ 7 := fun hp => by simp [readHasSideEffect, hport, hp] at hq
    have hlt : a.toNat % 8 < 8 := Nat.mod_lt _ (by omega)
    generalize a.toNat % 8 = p at h hp2 hp7 hlt
    obtain rfl | hp4 := eq_or_ne p 4
    · cases h
      rfl
    · interval_cases p <;> simp_all [portRead]
  · have hpad : ¬ a.toNat = 0x4016 := fun hp => by
      rw [show a = 0x4016 from BitVec.eq_of_toNat_eq hp] at hq
      simp [readHasSideEffect] at hq
    rw [memRead] at h
    split_ifs at h with h1 h2 h3 h4 h5
    · cases h; rfl
    · omega
    · cases h; rfl
    · cases hc : cartRead a s with
      | error e => rw [hc] at h; cases h
      | ok b => rw [hc] at h; cases h; rfl

/-- Settles O33: the frame of a read (`memRead_frame`), its quiet addresses (`memRead_quiet`), and that a faulting read changes
nothing (`memRead_error`). -/
theorem busReadFrame : Obligations.BusReadFrame := by
  refine ⟨fun a s t d h => ⟨?_, memRead_quiet h, by rw [memObserve, h]⟩, fun a s t kind h => ⟨(memRead_error h).1, by
    rw [memObserve, h]⟩⟩
  obtain ⟨_, _, _, _, _, _, rfl, -⟩ := memRead_frame h
  rfl

end Sys2Proof.Machine
end

section
/-! The PPU's address space and OAM-DMA (20_memory.md R80–R82, R92, R103; 40_step.md R175, R176): each address as a place of
storage, and the copy of a page as one fill of OAM. -/

namespace Sys2Proof.Machine

/-! Places -/

/-- The CHR bank of the model and that of the statements (R92, R103). -/
theorem chrOffset_eq (s : State) {a : Nat} (h : a < 0x2000) : chrOffset s a = chrIndex s a := by
  cases hm : s.cart.mapper
  · simp only [chrOffset, chrIndex, hm]
  · cases hctl : s.mmc1.control.getLsbD 4
    · simp only [chrOffset, chrIndex, hm, hctl, Bool.not_false, if_true]
    · by_cases hlow : a < 0x1000
      · simp only [chrOffset, chrIndex, hm, hctl, if_pos hlow, Bool.not_true, Bool.true_eq_false, Bool.false_eq_true, if_false,
          Nat.mod_eq_of_lt (show a < 4096 by omega)]
      · simp only [chrOffset, chrIndex, hm, hctl, if_neg hlow, Bool.not_true, Bool.true_eq_false, Bool.false_eq_true, if_false,
          show a % 4096 = a - 0x1000 by omega]

/-- The page of a nametable is the map's row (R81). -/
theorem nametablePage_eq (m : Mirroring) {t : Nat} (h : t < 4) : nametablePage m t = (nametableMap m).getD t 0 := by
  cases m <;> interval_cases t <;> rfl

/-- The palette's aliases (R82). -/
theorem palIndex_eq (a : Nat) :
    palIndex a = if a % 32 ∈ [0x10, 0x14, 0x18, 0x1C] then a % 32 - 0x10 else a % 32 := by
  simp only [palIndex, List.mem_cons, List.not_mem_nil, or_false]

/-- The byte at a place. -/
def PpuSlot.read (s : State) : PpuSlot → Byte
  | .chr i => if s.cart.chrPages = 0 then s.chrRam.read i else s.cart.chr.read i
  | .nametable i => s.ppu.ciram.read i
  | .palette i => s.ppu.pal.read i

/-- The state with a byte at a place of RAM. -/
def PpuSlot.write (d : Byte) (s : State) : PpuSlot → State
  | .chr i => s.setChrRam (s.chrRam.write i d)
  | .nametable i => s.setPpu { s.ppu with ciram := s.ppu.ciram.write i d }
  | .palette i => s.setPpu { s.ppu with pal := s.ppu.pal.write i d }

/-- The place of an address, region by region (R80). -/
theorem ppuSlot_eq (s : State) (a : Nat) : ppuSlot s a =
    if a % 0x4000 < 0x2000 then .chr (chrOffset s (a % 0x4000))
    else if a % 0x4000 < 0x3F00 then .nametable (ciramIndex (mirroring s) (a % 0x4000))
    else .palette (palIndex (a % 0x4000)) := by
  simp only [ppuSlot]
  split
  · next h => rw [chrOffset_eq s h]
  · split
    · rw [ciramIndex, nametablePage_eq _ (by omega)]
    · rw [palIndex_eq]
      split <;> rfl

/-- Every PPU address reads the byte of its place (R80). -/
theorem ppuRead_eq (s : State) (a : Nat) : ppuRead s a = (ppuSlot s a).read s := by
  rw [ppuSlot_eq]
  simp only [ppuRead, chrRead]
  split_ifs with h1 h2 h3
  · exact (if_pos h2).symm
  · exact (if_neg h2).symm
  · rfl
  · rfl

/-- A write that does not go to CHR-ROM puts its byte at the address's place (R80). -/
theorem ppuWrite_eq (s : State) (a : Nat) (d : Byte) (h : ¬ (a % 0x4000 < 0x2000 ∧ s.cart.chrPages ≠ 0)) :
    ppuWrite a d s = .ok ((ppuSlot s a).write d s) := by
  rw [ppuSlot_eq]
  simp only [ppuWrite, chrWrite]
  split_ifs with h1 h2 h3
  · rfl
  · exact absurd ⟨h1, h2⟩ h
  · rfl
  · rfl

/-- A write to a place of RAM is read there, and every other place reads as before. -/
theorem PpuSlot.read_write (s : State) (d : Byte) (p q : PpuSlot) (h : ∀ i, p = .chr i → s.cart.chrPages = 0) :
    q.read (p.write d s) = if q = p then d else q.read s := by
  cases p with
  | chr i =>
    cases q with
    | chr j =>
      rw [show (PpuSlot.chr j).read ((PpuSlot.chr i).write d s) = (s.chrRam.write i d).read j from if_pos (h i rfl),
        show (PpuSlot.chr j).read s = s.chrRam.read j from if_pos (h i rfl), Memory.read_write]
      simp only [PpuSlot.chr.injEq]
    | nametable j => exact (if_neg nofun).symm
    | palette j => exact (if_neg nofun).symm
  | nametable i =>
    cases q with
    | chr j => exact (if_neg nofun).symm
    | nametable j =>
      simp only [PpuSlot.nametable.injEq]
      exact Memory.read_write ..
    | palette j => exact (if_neg nofun).symm
  | palette i =>
    cases q with
    | chr j => exact (if_neg nofun).symm
    | nametable j => exact (if_neg nofun).symm
    | palette j =>
      simp only [PpuSlot.palette.injEq]
      exact Memory.read_write ..

/-- A write moves no place: it leaves the cartridge and its registers alone. -/
theorem ppuSlot_write (s : State) (d : Byte) (p : PpuSlot) (b : Nat) : ppuSlot (p.write d s) b = ppuSlot s b := by
  cases p <;> rfl

/-- Settles O26: an address is a place (`ppuRead_eq`, `ppuWrite_eq`), and two places are one byte or two
(`PpuSlot.read_write`). -/
theorem ppuAddressSpace : Obligations.PpuAddressSpace := by
  intro s a
  refine ⟨?_, fun d => ?_⟩
  · rw [ppuRead_eq]
    cases ppuSlot s a <;> rfl
  · by_cases hrom : a % 0x4000 < 0x2000 ∧ s.cart.chrPages ≠ 0
    · simp only [if_pos hrom, ppuWrite, if_pos hrom.1, chrWrite, if_neg hrom.2]
    · simp only [if_neg hrom]
      have hw := ppuWrite_eq s a d hrom
      refine ⟨_, hw, ppuWrite_frame hw, fun b => ?_⟩
      rw [ppuRead_eq, ppuSlot_write, ppuRead_eq]
      refine PpuSlot.read_write s d _ _ fun i hi => ?_
      rw [ppuSlot_eq] at hi
      split_ifs at hi with hlow
      by_contra hpages
      exact hrom ⟨hlow, hpages⟩

/-! OAM-DMA -/

/-- The state with another OAM. -/
def State.withOam (s : State) (m : Memory) : State := s.setPpu { s.ppu with oam := m }

@[simp] theorem State.withOam_oam (s : State) (m : Memory) : (s.withOam m).ppu.oam = m := rfl

theorem State.withOam_frame (s : State) (m : Memory) :
    s.withOam m = { s with ppu := { s.ppu with oam := (s.withOam m).ppu.oam } } := rfl

/-- OAM after the writes of `b i`, `b (i + 1)`, … at `i`, `i + 1`, …, `k` of them (R175). -/
def oamFill (b : Nat → Byte) : Nat → Nat → Memory → Memory
  | _, 0, m => m
  | i, k + 1, m => oamFill b (i + 1) k (m.write i (b i))

theorem oamFill_read (b : Nat → Byte) (i k : Nat) (m : Memory) (j : Nat) :
    (oamFill b i k m).read j = if i ≤ j ∧ j < i + k then b j else m.read j := by
  induction k generalizing i m with
  | zero => rw [oamFill, if_neg (by omega)]
  | succ k ih =>
    rw [oamFill, ih, Memory.read_write]
    by_cases hj : j = i
    · subst hj
      rw [if_neg (by omega), if_pos rfl, if_pos (by omega)]
    · simp only [if_neg hj]
      exact if_congr (by omega) rfl rfl

/-- The copy of `k` bytes that read without side effects is a fill of OAM (R175). -/
theorem oamDmaCopy_fill (d : Byte) (s : State) (b : Nat → Byte) (k n : Nat) {i : Nat} (hi : i + k + n = 256)
    (hr : ∀ j, i ≤ j → j < i + k → ∀ m,
      memRead (BitVec.ofNat 16 (256 * d.toNat + j)) (s.withOam m) = .ok (b j, s.withOam m)) (m : Memory) :
    oamDmaCopy d (k + n) (s.withOam m) = oamDmaCopy d n (s.withOam (oamFill b i k m)) := by
  induction k generalizing i m with
  | zero => rw [Nat.zero_add]; rfl
  | succ k ih =>
    rw [show k + 1 + n = (k + n) + 1 by omega, oamDmaCopy, show 255 - (k + n) = i by omega, dma_address d (by omega),
      hr i le_rfl (by omega) m]
    exact ih (i := i + 1) (by omega) (fun j h1 h2 => hr j (by omega) (by omega)) (m.write i (b i))

/-- A source address as a number (R175). -/
theorem dmaSource_toNat (d : Byte) {j : Nat} (hj : j < 256) :
    (BitVec.ofNat 16 (256 * d.toNat + j)).toNat = 256 * d.toNat + j := by
  have := d.isLt
  rw [BitVec.toNat_ofNat, Nat.mod_eq_of_lt (by omega)]

/-- OAM is no part of what an address that is no port observes. -/
theorem memRead_withOam_of_storage {a : Word} (s : State) (m : Memory)
    (h : a.toNat < 0x2000 ∨ 0x8000 ≤ a.toNat ∨ (0x6000 ≤ a.toNat ∧ hasCartRam s.cart = true)) :
    memRead a (s.withOam m) = .ok (memObserve a s, s.withOam m) := by
  by_cases h8 : 0x8000 ≤ a.toNat
  · rw [memRead_prg _ h8, memObserve_prg s h8]
    rfl
  rcases h with h | h | ⟨h, hram⟩
  · simp only [memObserve, memRead_ram _ (show a.toNat ≤ 0x1FFF by omega)]
    rfl
  · exact absurd h h8
  · simp only [memObserve, (cartRam_access 0 hram h (by omega)).1]
    exact (cartRam_access 0 (s := s.withOam m) hram h (by omega)).1

/-- A source page with storage behind it is copied whole (R175, R176). -/
theorem oamDma_copies (d : Byte) (s : State)
    (h : d.toNat < 0x20 ∨ 0x80 ≤ d.toNat ∨ (0x60 ≤ d.toNat ∧ hasCartRam s.cart = true)) :
    oamDma d s = .ok (if s.odd then 514 else 513,
      s.withOam (oamFill (fun i => memObserve (BitVec.ofNat 16 (256 * d.toNat + i)) s) 0 256 s.ppu.oam)) := by
  have hcopy := oamDmaCopy_fill d s (fun i => memObserve (BitVec.ofNat 16 (256 * d.toNat + i)) s) 256 0 (i := 0) rfl
    (fun j _ hj m => memRead_withOam_of_storage s m (by
      rw [dmaSource_toNat d (by omega)]
      exact h.imp (by omega) (Or.imp (by omega) (And.imp_left (by omega))))) s.ppu.oam
  rw [oamDma, show s = s.withOam s.ppu.oam from rfl, hcopy]
  rfl

/-- A copy faults at its next source read where that read does (R323). -/
theorem oamDmaCopy_succ_fault (d : Byte) {n : Nat} {s : State} {kind : FaultKind} (hn : n < 256)
    (h : readFault s (BitVec.ofNat 16 (256 * d.toNat + (255 - n))) = some kind) :
    oamDmaCopy d (n + 1) s = .error (.raised kind s) := by
  rw [oamDmaCopy, dma_address d (by omega), memRead_of_readFault h]
  rfl

/-- From page $40 the copy faults at $4014, after the twenty zeros before it (R85, R175). -/
theorem oamDma_page40 (s : State) :
    oamDma 0x40 s = .error (.raised (.invalidMmioRead 0x4014) (s.withOam (oamFill (fun _ => 0) 0 20 s.ppu.oam))) := by
  have hzero : ∀ j, 0 ≤ j → j < 0 + 20 → ∀ m,
      memRead (BitVec.ofNat 16 (256 * (0x40 : Byte).toNat + j)) (s.withOam m) = .ok (0, s.withOam m) := by
    intro j _ hj m
    refine (ioHole_silent 0 _ (.inl ?_)).1
    rw [dmaSource_toNat _ (by omega), show (0x40 : Byte).toNat = 64 from rfl]
    omega
  have hcopy := oamDmaCopy_fill 0x40 s (fun _ => 0) 20 236 (i := 0) rfl hzero s.ppu.oam
  rw [oamDma, show s = s.withOam s.ppu.oam from rfl, show (256 : Nat) = 20 + 236 from rfl, hcopy,
    oamDmaCopy_succ_fault 0x40 (n := 235) (kind := .invalidMmioRead 0x4014) (by omega) rfl]
  rfl

/-- From any other page without storage the copy faults at its first byte, with nothing copied (R175, R323). -/
theorem oamDma_faults (d : Byte) (s : State) {kind : FaultKind}
    (h : readFault s (BitVec.ofNat 16 (256 * d.toNat)) = some kind) : oamDma d s = .error (.raised kind s) := by
  rw [oamDma, oamDmaCopy_succ_fault d (n := 255) (by omega) h]
  rfl

/-- The first source address of a page without storage, and its fault (R65, R77). -/
theorem readFault_firstSource (d : Byte) (s : State) (hd : 0x20 ≤ d.toNat ∧ d.toNat < 0x80 ∧ d.toNat ≠ 0x40)
    (hno : ¬ (0x60 ≤ d.toNat ∧ hasCartRam s.cart = true)) :
    readFault s (BitVec.ofNat 16 (256 * d.toNat)) = some
      (if d.toNat < 0x40 then .invalidMmioRead 0x2000 else .unmappedAddress (BitVec.ofNat 16 (256 * d.toNat))) := by
  have ha : (BitVec.ofNat 16 (256 * d.toNat)).toNat = 256 * d.toNat := dmaSource_toNat d (j := 0) (by omega)
  rw [hasCartRam_iff] at hno
  by_cases hlow : d.toNat < 0x40
  · simp only [readFault, ha, if_pos hlow, show ¬ 256 * d.toNat < 0x2000 by omega, show 256 * d.toNat < 0x4000 by omega,
      show 256 * d.toNat % 8 = 0 by omega, if_true, if_false]
    rfl
  · simp only [readFault, ha, if_neg hlow, show ¬ 256 * d.toNat < 0x2000 by omega, show ¬ 256 * d.toNat < 0x4000 by omega,
      show ¬ 256 * d.toNat = 0x4014 by omega, show ¬ 256 * d.toNat < 0x4018 by omega,
      show ¬ 0x8000 ≤ 256 * d.toNat by omega, if_false]
    exact if_neg fun h => hno ⟨by omega, h.2⟩

/-- Settles O32: the page's storage is copied whole (`oamDma_copies`), page $40 up to $4014 (`oamDma_page40`), and any other
page faults at once (`oamDma_faults`). -/
theorem oamDmaCopies : Obligations.OamDmaCopies := by
  intro d s
  have hw : memWrite 0x4014 d s = oamDma d s := rfl
  have hlt : ∀ e : Byte, d < e ↔ d.toNat < e.toNat := fun _ => BitVec.lt_def
  have hle : ∀ e : Byte, e ≤ d ↔ e.toNat ≤ d.toNat := fun _ => BitVec.le_def
  rw [hw]
  by_cases h : d < 0x20 ∨ 0x80 ≤ d ∨ (0x60 ≤ d ∧ (s.cart.mapper = .mmc1 ∨ s.cart.nromSram = true))
  · rw [if_pos h]
    simp only [hlt, hle, ← hasCartRam_iff] at h
    refine ⟨_, oamDma_copies d s h, State.withOam_frame s _, fun i hi => ?_⟩
    rw [State.withOam_oam, oamFill_read, if_pos (by omega)]
  · rw [if_neg h]
    simp only [hlt, hle, ← hasCartRam_iff, not_or] at h
    obtain ⟨h20, h80, hno⟩ := h
    by_cases h40 : d = 0x40
    · subst h40
      refine ⟨_, oamDma_page40 s, State.withOam_frame s _, fun i => ?_⟩
      rw [State.withOam_oam, oamFill_read]
      exact if_congr (by simp) rfl rfl
    · have hne : d.toNat ≠ 0x40 := fun hd => h40 (BitVec.eq_of_toNat_eq hd)
      have hf := readFault_firstSource d s ⟨not_lt.mp h20, not_le.mp h80, hne⟩ hno
      refine ⟨s, ?_, rfl, fun i => (if_neg fun hc => h40 hc.1).symm⟩
      rw [oamDma_faults d s hf, if_neg h40]
      congr 2

end Sys2Proof.Machine
end

section
/-! Instructions that store nothing (20_memory.md R53; 41_load_store_transfer.md R200): bus reads and changes of the core's own
registers alone. From it what they leave alone, the NMI latch that only a write of PPUCTRL sets, and the cycles of a step. -/

namespace Sys2Proof.Machine

/-- Bus reads lead from one state to another (R53). -/
def ReadsTo : State → State → Prop := Relation.ReflTransGen fun s t => ∃ addr d, memRead addr s = .ok (d, t)

/-- An operation on an operand that is made of bus reads and changes of the core's registers, and adds at most two cycles. -/
def Quiet (m : Addressed) (op : Operation) : Prop := ∀ pc0 (s t : State), op pc0 m s = .ok t →
  ∃ u, ReadsTo s u ∧ t = u.withCore t ∧ s.stepCycles ≤ t.stepCycles ∧ t.stepCycles ≤ s.stepCycles + 2

theorem readsTo_core_kept {s t : State} (h : ReadsTo s t) : t = t.withCore s := by
  induction h with
  | refl => rfl
  | tail _ hr ih =>
    obtain ⟨addr, d, hr⟩ := hr
    rw [(memRead_core_kept hr).1, ih]
    rfl

section
variable {m : Addressed}

/-- An operand that is read: one bus read, or none. -/
theorem readOperand_readsTo {pc0 : Word} {o : Operand} {s u : State} {b : Byte} (h : readOperand pc0 o s = .ok (b, u)) :
    ReadsTo s u := by
  cases o with
  | ram ea => exact .single ⟨ea, b, h⟩
  | reg r => cases h; exact .refl
  | const k => cases h; exact .refl
  | nil => cases h

/-- What changes the core's registers alone, after the reads, and adds at most two cycles. -/
theorem quiet_pure {op : Operation} (f : Word → State → State)
    (hf : ∀ pc0 s, f pc0 s = s.withCore (f pc0 s) ∧ s.stepCycles ≤ (f pc0 s).stepCycles ∧
      (f pc0 s).stepCycles ≤ s.stepCycles + 2)
    (hop : ∀ pc0 s, op pc0 m s = .ok (f pc0 s)) : Quiet m op := by
  intro pc0 s t h
  rw [hop] at h
  cases h
  exact ⟨s, .refl, hf pc0 s⟩

/-- What reads its operand and then changes the core's registers alone, the cycle count apart. -/
theorem quiet_reading {op : Operation} (f : Byte → State → State)
    (hf : ∀ b s, f b s = s.withCore (f b s) ∧ (f b s).stepCycles = s.stepCycles)
    (hop : ∀ pc0 s, op pc0 m s = (readOperand pc0 m.opnd s >>= fun r => .ok (f r.1 r.2))) : Quiet m op := by
  intro pc0 s t h
  rw [hop] at h
  cases hr : readOperand pc0 m.opnd s with
  | error e => rw [hr] at h; cases h
  | ok r =>
    rw [hr, ok_bind] at h
    cases h
    obtain ⟨hcore, hcycles⟩ := hf r.1 r.2
    have hu := readOperand_readsTo hr
    have hsteps : r.2.stepCycles = s.stepCycles := by rw [readsTo_core_kept hu]; rfl
    exact ⟨r.2, hu, hcore, by omega, by omega⟩

theorem writeReg_withCore (r : Reg) (b : Byte) (f : Flags) (s : State) :
    (writeReg r b s).setFlags f = s.withCore ((writeReg r b s).setFlags f) ∧
      ((writeReg r b s).setFlags f).stepCycles = s.stepCycles := by
  cases r <;> exact ⟨rfl, rfl⟩

theorem quiet_load (r : Reg) : Quiet m (loadRegister r) :=
  quiet_reading (fun b s => (writeReg r b s).setFlags (setNZ b s.flags)) (fun b s => writeReg_withCore r b _ s) fun _ _ => rfl

theorem quiet_transfer (r : Reg) (b : State → Byte) : Quiet m (transferTo r b) :=
  quiet_pure (fun _ s => (writeReg r (b s) s).setFlags (setNZ (b s) s.flags))
    (fun _ s => by
      obtain ⟨h, h'⟩ := writeReg_withCore r (b s) (setNZ (b s) s.flags) s
      exact ⟨h, by omega, by omega⟩)
    fun _ _ => rfl

theorem quiet_accumulate (f : Byte → Byte → Flags → Byte × Flags) : Quiet m (accumulate f) :=
  quiet_reading (fun b s => (s.setA (f s.a b s.flags).1).setFlags (f s.a b s.flags).2) (fun _ _ => ⟨rfl, rfl⟩) fun _ _ => rfl

theorem quiet_logic (f : Byte → Byte → Byte) : Quiet m (logic f) := quiet_accumulate _

theorem quiet_test (f : Byte → State → Flags) : Quiet m (testOperand f) :=
  quiet_reading (fun b s => s.setFlags (f b s)) (fun _ _ => ⟨rfl, rfl⟩) fun _ _ => rfl

theorem quiet_changeFlags (f : Flags → Flags) : Quiet m (changeFlags f) :=
  quiet_pure (fun _ s => s.setFlags (f s.flags)) (fun _ _ => ⟨rfl, le_rfl, Nat.le_add_right ..⟩) fun _ _ => rfl

theorem quiet_jmp : Quiet m opJmp := by
  intro pc0 s t h
  simp only [opJmp, withTarget] at h
  split at h
  · cases h
    exact ⟨s, .refl, rfl, le_rfl, Nat.le_add_right ..⟩
  · cases h

theorem quiet_branch (cond : State → Bool) : Quiet m (branch cond) := by
  intro pc0 s t h
  simp only [branch, withTarget] at h
  split at h
  · split at h
    · cases h
      refine ⟨s, .refl, rfl, Nat.le_add_right .., ?_⟩
      simp only [addCycles, State.setPc_stepCycles, State.setStepCycles_stepCycles]
      split <;> omega
    · cases h
  · cases h
    exact ⟨s, .refl, rfl, le_rfl, Nat.le_add_right ..⟩

/-- On a register a read-modify-write reads and writes the register alone (R131, R165). -/
theorem quiet_modify_reg {r : Reg} {c : Bool} (f : Byte → Flags → Byte × Flags) : Quiet ⟨.reg r, c⟩ (readModifyWrite f) := by
  intro pc0 s t h
  cases h
  cases r <;> exact ⟨s, .refl, rfl, le_rfl, Nat.le_add_right ..⟩

theorem quiet_pla : Quiet m opPla :=
  quiet_pure (fun _ s => ((s.setSp (s.sp + 1)).setA (s.ram.read (0x100 + (s.sp + 1).toNat))).setFlags
      (setNZ (s.ram.read (0x100 + (s.sp + 1).toNat)) s.flags)) (fun _ _ => ⟨rfl, le_rfl, Nat.le_add_right ..⟩)
    fun _ s => by simp only [opPla, pull_eq]; rfl

theorem quiet_plp : Quiet m opPlp :=
  quiet_pure (fun _ s => (s.setSp (s.sp + 1)).setFlags (setP (s.ram.read (0x100 + (s.sp + 1).toNat))))
    (fun _ _ => ⟨rfl, le_rfl, Nat.le_add_right ..⟩) fun _ s => by simp only [opPlp, pull_eq]; rfl

theorem quiet_rts : Quiet m opRts :=
  quiet_pure (fun _ s => (s.setSp (s.sp + 2)).setPc
      (mkWord (s.ram.read (0x100 + (s.sp + 1).toNat)) (s.ram.read (0x100 + (s.sp + 2).toNat)) + 1))
    (fun _ _ => ⟨rfl, le_rfl, Nat.le_add_right ..⟩) fun pc0 s => opRts_eq pc0 m s

theorem quiet_rti : Quiet m opRti :=
  quiet_pure (fun _ s => ((s.setSp (s.sp + 3)).setFlags (setP (s.ram.read (0x100 + (s.sp + 1).toNat)))).setPc
      (mkWord (s.ram.read (0x100 + (s.sp + 2).toNat)) (s.ram.read (0x100 + (s.sp + 3).toNat))))
    (fun _ _ => ⟨rfl, le_rfl, Nat.le_add_right ..⟩) fun _ s => returnFromException_eq s

end

/-- The operation of a mnemonic that stores nothing on its operand is quiet (R200). -/
theorem quiet_operationOf (mn : Mnemonic) (m : Addressed) (hs : mn.isStore = false) (hp : mn.isPush = false)
    (hm : mn.isModify = true → ∃ r c, m = ⟨.reg r, c⟩) : Quiet m (operationOf mn) := by
  cases mn with
  | sta | stx | sty => exact absurd hs (by decide)
  | pha | php | jsr | brk => exact absurd hp (by decide)
  | inc =>
    obtain ⟨r, c, rfl⟩ := hm rfl
    exact quiet_modify_reg Machine.inc
  | dec =>
    obtain ⟨r, c, rfl⟩ := hm rfl
    exact quiet_modify_reg Machine.dec
  | asl =>
    obtain ⟨r, c, rfl⟩ := hm rfl
    exact quiet_modify_reg Machine.asl
  | lsr =>
    obtain ⟨r, c, rfl⟩ := hm rfl
    exact quiet_modify_reg Machine.lsr
  | rol =>
    obtain ⟨r, c, rfl⟩ := hm rfl
    exact quiet_modify_reg Machine.rol
  | ror =>
    obtain ⟨r, c, rfl⟩ := hm rfl
    exact quiet_modify_reg Machine.ror
  | lda => exact quiet_load .a
  | ldx => exact quiet_load .x
  | ldy => exact quiet_load .y
  | tax => exact quiet_transfer .x _
  | tay => exact quiet_transfer .y _
  | txa => exact quiet_transfer .a _
  | tya => exact quiet_transfer .a _
  | tsx => exact quiet_transfer .x _
  | inx => exact quiet_transfer .x _
  | iny => exact quiet_transfer .y _
  | dex => exact quiet_transfer .x _
  | dey => exact quiet_transfer .y _
  | txs => exact quiet_pure (fun _ s => s.setSp s.x) (fun _ _ => ⟨rfl, le_rfl, Nat.le_add_right ..⟩) fun _ _ => rfl
  | pla => exact quiet_pla
  | plp => exact quiet_plp
  | adc | sbc =>
    dsimp only [operationOf]
    exact quiet_accumulate _
  | and | ora | eor =>
    dsimp only [operationOf]
    exact quiet_logic _
  | bit | cmp | cpx | cpy =>
    dsimp only [operationOf]
    exact quiet_test _
  | jmp => exact quiet_jmp
  | rts => exact quiet_rts
  | rti => exact quiet_rti
  | bcc | bcs | beq | bmi | bne | bpl | bvc | bvs => exact quiet_branch _
  | clc | sec | cli | sei | cld | sed | clv =>
    dsimp only [operationOf]
    exact quiet_changeFlags _
  | nop => exact quiet_pure (fun _ s => s) (fun _ _ => ⟨rfl, le_rfl, Nat.le_add_right ..⟩) fun _ _ => rfl

/-! Instructions that store nothing -/

/-- Whether an operand is the accumulator. -/
def Addressing.isAcc : Addressing → Bool
  | .acc => true
  | _ => false

/-- What stores to memory, by mnemonic and operand: the read-modify-writes store but on A (R131, R165). -/
theorem storesToMemory_eq (i : Instr) : storesToMemory i = ((mnemonicOf i).isStore || (mnemonicOf i).isPush ||
    ((mnemonicOf i).isModify && !(addressingOf i).isAcc)) := by
  cases i <;> rfl

/-- The accumulator's mode answers the register A (R131). -/
theorem Addressing.mode_isAcc {m : Addressing} (hm : m.isAcc = true) {a : Addressed} {s u : State}
    (h : m.mode s = .ok (a, u)) : a = ⟨.reg .a, false⟩ := by
  cases m with
  | acc => cases h; rfl
  | _ => cases hm

/-- A mode is made of bus reads. -/
theorem Addressing.mode_readsTo {m : Addressing} {a : Addressed} {s u : State} (h : m.mode s = .ok (a, u)) : ReadsTo s u := by
  obtain ⟨-, rfl | ⟨addr, lo, hi, s1, h1, h2⟩⟩ := mode_ok h
  · exact .refl
  · exact .tail (.single ⟨addr, lo, h1⟩) ⟨_, hi, h2⟩

theorem readsTo_addCycles {k : Nat} {s u : State} (h : ReadsTo (addCycles k s) u) :
    ∃ u', ReadsTo s u' ∧ u = u'.withCore u := by
  induction h with
  | refl => exact ⟨s, .refl, rfl⟩
  | @tail u w _ hr ih =>
    obtain ⟨u', hu', hcore⟩ := ih
    obtain ⟨addr, d, hr⟩ := hr
    rw [hcore] at hr
    cases hr' : memRead addr u' with
    | error e =>
      obtain ⟨kind, x⟩ := e
      rw [memRead_withCore, hr'] at hr
      cases hr
    | ok r =>
      rw [memRead_core hr' u] at hr
      cases hr
      exact ⟨r.2, .tail hu' ⟨addr, r.1, hr'⟩, rfl⟩

/-- An instruction that stores nothing is bus reads, from a state with the same devices, and changes of the core's registers
(R200). -/
theorem exec_quiet {i : Instr} {s t : State} (hi : storesToMemory i = false) (h : exec i s = .next t) :
    ∃ s0 u, s0 = s.withCore s0 ∧ ReadsTo s0 u ∧ t = u.withCore t := by
  rw [storesToMemory_eq, Bool.or_eq_false_iff, Bool.or_eq_false_iff] at hi
  obtain ⟨⟨hstore, hpush⟩, hmodify⟩ := hi
  obtain ⟨base, marked, n, hrun, -⟩ := exec_eq_runInstr i
  rw [hrun] at h
  obtain ⟨a, u, hmode, hop⟩ := runInstr_next h
  have hreg : (mnemonicOf i).isModify = true → ∃ r c, a = ⟨.reg r, c⟩ := fun hm => by
    rw [hm, Bool.true_and, Bool.not_eq_false'] at hmodify
    exact ⟨.a, false, Addressing.mode_isAcc hmodify hmode⟩
  obtain ⟨w, hw, hcore, -⟩ := quiet_operationOf (mnemonicOf i) a hstore hpush hreg _ _ _ hop
  have hmode := Addressing.mode_readsTo hmode
  refine ⟨s.prepared n base, ?_⟩
  split at hw
  · obtain ⟨w', hw', hcore'⟩ := readsTo_addCycles hw
    exact ⟨w', rfl, hmode.trans hw', by rw [hcore, hcore']; rfl⟩
  · exact ⟨w, rfl, hmode.trans hw, hcore⟩

/-- Everything that bus reads can change (R53). -/
theorem readsTo_frame {s t : State} (h : ReadsTo s t) : ∃ vblank w buf v ptr draws,
    t = ((s.setPpu { s.ppu with vblank := vblank, w := w, buf := buf, v := v }).setPad
      { s.pad with ptr := ptr }).setDraws draws := by
  induction h with
  | refl => exact ⟨s.ppu.vblank, s.ppu.w, s.ppu.buf, s.ppu.v, s.pad.ptr, s.draws, rfl⟩
  | tail _ hr ih =>
    obtain ⟨_, _, _, _, _, _, rfl⟩ := ih
    obtain ⟨addr, d, hr⟩ := hr
    obtain ⟨vblank, w, buf, v, ptr, draws, rfl, -⟩ := memRead_frame hr
    exact ⟨vblank, w, buf, v, ptr, draws, rfl⟩

/-- Everything that an instruction that stores nothing can change: what bus reads change, and the core's registers. -/
theorem exec_quiet_frame {i : Instr} {s t : State} (hi : storesToMemory i = false) (h : exec i s = .next t) :
    ∃ vblank w buf v ptr draws,
      t = (((s.setPpu { s.ppu with vblank := vblank, w := w, buf := buf, v := v }).setPad
        { s.pad with ptr := ptr }).setDraws draws).withCore t := by
  obtain ⟨s0, u, h0, hu, ht⟩ := exec_quiet hi h
  obtain ⟨vblank, w, buf, v, ptr, draws, rfl⟩ := readsTo_frame hu
  refine ⟨vblank, w, buf, v, ptr, draws, ?_⟩
  rw [h0] at ht
  exact ht

/-- Settles O36: what bus reads and changes of the core's registers cannot change (`exec_quiet_frame`), and what no port's
observation depends on (`memObserve_congr`). -/
theorem readingInstructionsLeaveMemory : Obligations.ReadingInstructionsLeaveMemory := by
  intro i s t hi h
  obtain ⟨_, _, _, _, _, _, ht⟩ := exec_quiet_frame hi h
  rw [ht]
  exact ⟨fun a ha => memObserve_congr ha (fun _ => rfl) rfl rfl rfl, rfl, rfl, rfl, rfl, rfl, rfl, rfl, rfl, rfl, rfl, rfl,
    rfl, rfl, rfl, rfl, rfl⟩

/-! The cycles of a step -/

/-- An operation on an operand adds at most so many cycles. -/
def Costs (n : Nat) (m : Addressed) (op : Operation) : Prop := ∀ pc0 (s t : State), op pc0 m s = .ok t →
  s.stepCycles ≤ t.stepCycles ∧ t.stepCycles ≤ s.stepCycles + n

theorem memWrite_stepCycles {a : Word} {d : Byte} {k : Nat} {s t : State} (h : memWrite a d s = .ok (k, t)) :
    t.stepCycles = s.stepCycles := by
  rw [(memWrite_core_kept h).1]
  rfl

/-- A write of an operand adds the stall of OAM-DMA, at $4014 alone (R163, R176). -/
theorem writeOperand_stepCycles {pc0 : Word} {o : Operand} {b : Byte} {s t : State} (h : writeOperand pc0 o b s = .ok t) :
    t.stepCycles = s.stepCycles ∨ o = .ram 0x4014 ∧ s.stepCycles ≤ t.stepCycles ∧ t.stepCycles ≤ s.stepCycles + 514 := by
  cases o with
  | ram ea =>
    simp only [writeOperand] at h
    cases hw : memWrite ea b s with
    | error e => rw [hw] at h; cases h
    | ok r =>
      rw [hw, ok_bind] at h
      cases h
      have hk := memWrite_cycles hw
      have hs := memWrite_stepCycles hw
      simp only [addCycles, State.setStepCycles_stepCycles, hs, hk]
      split_ifs with hea
      · exact .inr ⟨by rw [hea], by omega, by omega⟩
      · exact .inr ⟨by rw [hea], by omega, by omega⟩
      · exact .inl rfl
  | reg r => cases h; cases r <;> exact .inl rfl
  | const k => cases h
  | nil => cases h

theorem costs_store (m : Addressed) (b : State → Byte) : Costs 514 m fun pc0 m s => writeOperand pc0 m.opnd (b s) s := by
  intro pc0 s t h
  rcases writeOperand_stepCycles h with h | ⟨-, h⟩ <;> omega

/-- A read-modify-write never stalls: the read of $4014 before its write faults (R85, R165). -/
theorem costs_modify (m : Addressed) (f : Byte → Flags → Byte × Flags) : Costs 0 m (readModifyWrite f) := by
  intro pc0 s t h
  simp only [readModifyWrite] at h
  cases hc : checkRmw m.opnd s with
  | error e => rw [hc] at h; cases h
  | ok _ =>
    rw [hc, ok_bind] at h
    cases hr : readOperand pc0 m.opnd s with
    | error e => rw [hr] at h; cases h
    | ok r =>
      rw [hr, ok_bind] at h
      have hread : r.2.stepCycles = s.stepCycles := by
        rw [readsTo_core_kept (readOperand_readsTo hr)]
        rfl
      cases hw : writeOperand pc0 m.opnd (f r.1 r.2.flags).1 (r.2.setFlags (f r.1 r.2.flags).2) with
      | error e => simp only [hw] at h; cases h
      | ok u =>
        simp only [hw, ok_bind] at h
        cases h
        rcases writeOperand_stepCycles hw with hu | ⟨ho, -⟩
        · simp only [State.setFlags_stepCycles] at hu ⊢
          omega
        · rw [ho] at hr
          cases hr

/-- What answers at once with the cycle count as it was. -/
theorem costs_pure {m : Addressed} {op : Operation}
    (h : ∀ pc0 s, ∃ t, op pc0 m s = .ok t ∧ t.stepCycles = s.stepCycles) : Costs 0 m op := by
  intro pc0 s t ht
  obtain ⟨t', ht', hcycles⟩ := h pc0 s
  rw [ht'] at ht
  cases ht
  omega

theorem costs_jsr (m : Addressed) : Costs 0 m opJsr := by
  intro pc0 s t h
  simp only [opJsr, withTarget, push16_eq, ok_bind] at h
  split at h
  · cases h
    exact ⟨le_rfl, le_rfl⟩
  · cases h

theorem Costs.mono {n k : Nat} {m : Addressed} {op : Operation} (h : Costs n m op) (hk : n ≤ k) : Costs k m op :=
  fun pc0 s t ht => ⟨(h pc0 s t ht).1, (h pc0 s t ht).2.trans (by omega)⟩

/-- The cycles an operation adds to its row's: the stall of a store, two of a branch (R166, R270). -/
theorem costs_operationOf (mn : Mnemonic) (m : Addressed) : Costs (if mn.isStore then 514 else 2) m (operationOf mn) := by
  cases mn with
  | sta => exact costs_store m State.a
  | stx => exact costs_store m State.x
  | sty => exact costs_store m State.y
  | inc => exact (costs_modify m Machine.inc).mono (by omega)
  | dec => exact (costs_modify m Machine.dec).mono (by omega)
  | asl => exact (costs_modify m Machine.asl).mono (by omega)
  | lsr => exact (costs_modify m Machine.lsr).mono (by omega)
  | rol => exact (costs_modify m Machine.rol).mono (by omega)
  | ror => exact (costs_modify m Machine.ror).mono (by omega)
  | pha => exact (costs_pure fun _ s => ⟨_, push_eq s.a s, by rfl⟩).mono (by omega)
  | php => exact (costs_pure fun _ s => ⟨_, push_eq (getP s.flags ||| 0x30) s, by rfl⟩).mono (by omega)
  | jsr => exact (costs_jsr m).mono (by omega)
  | brk =>
    exact (costs_pure fun pc0 s =>
      ⟨_, takeException_eq (pc0 + 2) (getP s.flags ||| 0x30) s (by decide) (by decide), by rfl⟩).mono (by omega)
  | _ =>
    intro pc0 s t h
    obtain ⟨-, -, -, hcycles⟩ := quiet_operationOf _ m rfl rfl (fun hm => absurd hm (by decide)) pc0 s t h
    exact hcycles

/-- An instruction that completes takes its row's cycles and what its operation adds (R166, R395). -/
theorem exec_stepCycles {i : Instr} {s t : State} (h : exec i s = .next t) : 2 ≤ t.stepCycles ∧ t.stepCycles ≤ 520 := by
  obtain ⟨base, marked, n, hrun, hlow, hhigh, hmarked, hstore⟩ := exec_eq_runInstr i
  rw [hrun] at h
  obtain ⟨a, u, hmode, hop⟩ := runInstr_next h
  have hu : u.stepCycles = base := by rw [Addressing.mode_core_kept hmode]; rfl
  obtain ⟨h1, h2⟩ := costs_operationOf (mnemonicOf i) a _ _ _ hop
  have hpre : base ≤ (if marked && a.cross then addCycles 1 u else u).stepCycles ∧
      (if marked && a.cross then addCycles 1 u else u).stepCycles ≤ base + if marked then 1 else 0 := by
    cases marked <;> cases a.cross <;> simp [addCycles, hu]
  generalize (if marked && a.cross then addCycles 1 u else u) = w at h1 h2 hpre
  cases marked <;> cases hs : (mnemonicOf i).isStore <;> simp [hs] at h2 hpre hmarked hstore <;> omega

/-- Settles O13: an entry takes 7 cycles, an instruction its row's and what its operation adds (`exec_stepCycles`). -/
theorem stepTakesTwoToFiveHundredTwentyCycles : Obligations.StepTakesTwoToFiveHundredTwentyCycles := by
  intro s t hs h
  obtain ⟨u, hu, rfl⟩ := step_goes_next hs h
  obtain ⟨g, r, hstop⟩ := applyStop_frame (finishStep Config.vblankDot u)
  obtain ⟨_, _, _, _, _, _, hf⟩ := finishStep_frame Config.vblankDot u
  rw [hstop, hf]
  show 2 ≤ u.stepCycles ∧ u.stepCycles ≤ 520
  simp only [serviceOrExecute, executeNext] at hu
  split at hu
  · rw [interruptEntry_vector (by simp)] at hu
    cases hu
    simp
  split at hu
  · rw [interruptEntry_vector (by simp)] at hu
    cases hu
    simp
  cases hfetch : fetchInstr s.passGate with
  | error e => rw [hfetch] at hu; cases e; cases hu
  | ok r =>
    rw [hfetch] at hu
    exact exec_stepCycles hu

end Sys2Proof.Machine
end

section
/-! What a bus write can do, by the device it goes to (20_memory.md R61), and from it the sources of the NMI latch
(60_exceptions.md R331, R341). -/

namespace Sys2Proof.Machine

theorem isPpuPort.lt {a : Word} {p : Nat} (h : isPpuPort a p) : p < 8 := by
  obtain ⟨-, -, rfl⟩ := h
  exact Nat.mod_lt _ (by omega)

/-- A completed write, by the device that its address selects (R61). -/
theorem memWrite_cases {a : Word} {d : Byte} {k : Nat} {s t : State} (h : memWrite a d s = .ok (k, t)) :
    (a.toNat < 0x2000 ∧ t = s.setRam (s.ram.write (a.toNat % 2048) d)) ∨
    (∃ p, isPpuPort a p ∧ portWrite p d s = .ok t) ∨
    (a = 0x4014 ∧ oamDmaCopy d 256 s = .ok t) ∨
    (a = 0x4016 ∧ t = controllerWrite d s) ∨
    t = s ∨
    (0x6000 ≤ a.toNat ∧ a.toNat < 0x8000 ∧ t = s.setCartRam (s.cartRam.write (a.toNat - 0x6000) d)) ∨
    (0x8000 ≤ a.toNat ∧ t = s.setMmc1 (mmc1Write a.toNat d s.mmc1)) := by
  simp only [memWrite] at h
  split_ifs at h with hram hport hdma hpad hio
  · cases h
    exact .inl ⟨by omega, rfl⟩
  · cases hp : portWrite (a.toNat % 8) d s with
    | error e => rw [hp] at h; cases h
    | ok u =>
      rw [hp] at h
      cases h
      exact .inr (.inl ⟨_, ⟨by omega, by omega, rfl⟩, hp⟩)
  · simp only [oamDma] at h
    cases hc : oamDmaCopy d 256 s with
    | error e => rw [hc] at h; cases h
    | ok u =>
      rw [hc] at h
      cases h
      exact .inr (.inr (.inl ⟨BitVec.eq_of_toNat_eq hdma, rfl⟩))
  · cases h
    exact .inr (.inr (.inr (.inl ⟨BitVec.eq_of_toNat_eq hpad, rfl⟩)))
  · cases h
    exact .inr (.inr (.inr (.inr (.inl rfl))))
  · simp only [cartWrite] at h
    split_ifs at h with hprg hcartRam
    · cases hm : s.cart.mapper with
      | nrom => simp only [hm] at h; cases h
      | mmc1 =>
        simp only [hm] at h
        cases h
        exact .inr (.inr (.inr (.inr (.inr (.inr ⟨hprg, rfl⟩)))))
    · cases h
      exact .inr (.inr (.inr (.inr (.inr (.inl ⟨hcartRam.1, by omega, rfl⟩)))))
    · cases h

/-- A completed write of a PPU port: of PPUCTRL, of OAMDATA, of PPUDATA, or of another register (R67–R77). -/
theorem portWrite_cases {p : Nat} {d : Byte} {s t : State} (hp : p < 8) (h : portWrite p d s = .ok t) :
    (p = 0 ∧ t = writePpuCtrl d s) ∨ (p = 4 ∧ t = writeOamData d s) ∨
    (∃ mask oamaddr w scrollX scrollY tHi v, t = s.setPpu
      { s.ppu with mask := mask, oamaddr := oamaddr, w := w, scrollX := scrollX, scrollY := scrollY, tHi := tHi, v := v }) ∨
    (p = 7 ∧ ∃ chrRam ciram pal v, t = (s.setChrRam chrRam).setPpu { s.ppu with ciram := ciram, pal := pal, v := v }) := by
  interval_cases p
  · cases h; exact .inl ⟨rfl, rfl⟩
  · cases h; exact .inr (.inr (.inl ⟨d, s.ppu.oamaddr, s.ppu.w, s.ppu.scrollX, s.ppu.scrollY, s.ppu.tHi, s.ppu.v, rfl⟩))
  · cases h
  · cases h; exact .inr (.inr (.inl ⟨s.ppu.mask, d, s.ppu.w, s.ppu.scrollX, s.ppu.scrollY, s.ppu.tHi, s.ppu.v, rfl⟩))
  · cases h; exact .inr (.inl ⟨rfl, rfl⟩)
  · cases h
    refine .inr (.inr (.inl ?_))
    simp only [writePpuScroll]
    split
    · exact ⟨s.ppu.mask, s.ppu.oamaddr, true, d, s.ppu.scrollY, s.ppu.tHi, s.ppu.v, rfl⟩
    · exact ⟨s.ppu.mask, s.ppu.oamaddr, false, s.ppu.scrollX, d, s.ppu.tHi, s.ppu.v, rfl⟩
  · cases h
    refine .inr (.inr (.inl ?_))
    simp only [writePpuAddr]
    split
    · exact ⟨s.ppu.mask, s.ppu.oamaddr, true, s.ppu.scrollX, s.ppu.scrollY, d, s.ppu.v, rfl⟩
    · exact ⟨s.ppu.mask, s.ppu.oamaddr, false, s.ppu.scrollX, s.ppu.scrollY, s.ppu.tHi, mkWord d s.ppu.tHi, rfl⟩
  · simp only [portWrite, writePpuData] at h
    cases hw : ppuWrite (s.ppu.v.toNat % 0x4000) d s with
    | error e => rw [hw] at h; cases h
    | ok u =>
      rw [hw] at h
      cases h
      refine .inr (.inr (.inr ⟨rfl, u.chrRam, u.ppu.ciram, u.ppu.pal, u.ppu.v + vramIncrement u.ppu, ?_⟩))
      rw [ppuWrite_frame hw]
      rfl

/-- What an OAM-DMA that completes leaves has every property that bus reads and writes of OAM keep (R175). -/
theorem oamDmaCopy_ok {P : State → Prop} (hr : ∀ {addr b} {s t : State}, memRead addr s = .ok (b, t) → P s → P t)
    (ho : ∀ {s : State} i b, P s → P (s.setPpu { s.ppu with oam := s.ppu.oam.write i b })) (d : Byte) (n : Nat) {s t : State}
    (h : oamDmaCopy d n s = .ok t) (hp : P s) : P t := by
  induction n generalizing s with
  | zero =>
    obtain rfl := Except.ok.inj h
    exact hp
  | succ n ih =>
    simp only [oamDmaCopy] at h
    cases hm : memRead (mkWord (BitVec.ofNat 8 (255 - n)) d) s with
    | error e => rw [hm] at h; cases h
    | ok r =>
      rw [hm, ok_bind] at h
      exact ih h (ho _ _ (hr hm hp))

/-! The NMI latch -/

/-- A state's NMI latch is another's, or 1 where ctrl[7] went from 0 to 1 with the vblank flag set (R67, R341). -/
def LatchedBy (s t : State) : Prop := t.nmiLatch = (s.nmiLatch || (!s.ppu.ctrl.getLsbD 7 && t.ppu.ctrl.getLsbD 7 && s.ppu.vblank))

/-- A state's NMI latch and PPUCTRL are another's. -/
def SameLatch (s t : State) : Prop := t.nmiLatch = s.nmiLatch ∧ t.ppu.ctrl = s.ppu.ctrl

theorem SameLatch.latchedBy {s t : State} (h : SameLatch s t) : LatchedBy s t := by
  obtain ⟨hlatch, hctrl⟩ := h
  rw [LatchedBy, hlatch, hctrl]
  cases s.ppu.ctrl.getLsbD 7 <;> simp

theorem SameLatch.trans {s t u : State} (h : SameLatch s t) (h' : SameLatch t u) : SameLatch s u :=
  ⟨h'.1.trans h.1, h'.2.trans h.2⟩

/-- A write elsewhere than PPUCTRL leaves the latch and PPUCTRL alone. -/
theorem memWrite_sameLatch {a : Word} {d : Byte} {k : Nat} {s t : State} (h : memWrite a d s = .ok (k, t))
    (ha : ¬ isPpuPort a 0) : SameLatch s t := by
  rcases memWrite_cases h with ⟨-, rfl⟩ | ⟨p, hp, hport⟩ | ⟨-, hdma⟩ | ⟨-, rfl⟩ | rfl | ⟨-, -, rfl⟩ | ⟨-, rfl⟩
  · exact ⟨rfl, rfl⟩
  · rcases portWrite_cases hp.lt hport with ⟨rfl, -⟩ | ⟨-, rfl⟩ | ⟨_, _, _, _, _, _, _, rfl⟩ | ⟨-, _, _, _, _, rfl⟩
    · exact absurd hp ha
    · exact ⟨rfl, rfl⟩
    · exact ⟨rfl, rfl⟩
    · exact ⟨rfl, rfl⟩
  · refine oamDmaCopy_ok (P := SameLatch s) (fun hr hp => ?_) (fun _ _ hp => hp) d 256 hdma ⟨rfl, rfl⟩
    obtain ⟨_, _, _, _, _, _, rfl, -⟩ := memRead_frame hr
    exact hp
  · exact ⟨rfl, rfl⟩
  · exact ⟨rfl, rfl⟩
  · exact ⟨rfl, rfl⟩
  · exact ⟨rfl, rfl⟩

/-- A write latches an NMI by enabling it during vblank alone (R67, R341). -/
theorem memWrite_latchedBy {a : Word} {d : Byte} {k : Nat} {s t : State} (h : memWrite a d s = .ok (k, t)) : LatchedBy s t := by
  by_cases ha : isPpuPort a 0
  · rw [memWrite_ppuPort d s ha] at h
    cases h
    rfl
  · exact (memWrite_sameLatch h ha).latchedBy

theorem writeOperand_latchedBy {pc0 : Word} {o : Operand} {b : Byte} {s t : State} (h : writeOperand pc0 o b s = .ok t) :
    LatchedBy s t := by
  cases o with
  | ram ea =>
    simp only [writeOperand] at h
    cases hw : memWrite ea b s with
    | error e => rw [hw] at h; cases h
    | ok r =>
      rw [hw] at h
      cases h
      exact (memWrite_latchedBy hw : LatchedBy s r.2)
  | reg r => cases h; cases r <;> exact SameLatch.latchedBy ⟨rfl, rfl⟩
  | const k => cases h
  | nil => cases h

theorem readsTo_sameLatch {s t : State} (h : ReadsTo s t) : SameLatch s t := by
  obtain ⟨_, _, _, _, _, _, rfl⟩ := readsTo_frame h
  exact ⟨rfl, rfl⟩

/-- A read-modify-write never latches an NMI: the read of PPUCTRL before its write faults (R77, R165). -/
theorem modify_sameLatch {f : Byte → Flags → Byte × Flags} {pc0 : Word} {m : Addressed} {s t : State}
    (h : readModifyWrite f pc0 m s = .ok t) : SameLatch s t := by
  simp only [readModifyWrite] at h
  cases hc : checkRmw m.opnd s with
  | error e => rw [hc] at h; cases h
  | ok _ =>
    rw [hc, ok_bind] at h
    cases hr : readOperand pc0 m.opnd s with
    | error e => rw [hr] at h; cases h
    | ok r =>
      rw [hr, ok_bind] at h
      have hread := readsTo_sameLatch (readOperand_readsTo hr)
      cases hw : writeOperand pc0 m.opnd (f r.1 r.2.flags).1 (r.2.setFlags (f r.1 r.2.flags).2) with
      | error e => simp only [hw] at h; cases h
      | ok u =>
        simp only [hw, ok_bind] at h
        cases h
        refine hread.trans (SameLatch.trans (t := u) ?_ ⟨rfl, rfl⟩)
        cases ho : m.opnd with
        | ram ea =>
          rw [ho] at hr hw
          simp only [writeOperand] at hw
          cases hm : memWrite ea (f r.1 r.2.flags).1 (r.2.setFlags (f r.1 r.2.flags).2) with
          | error e => rw [hm] at hw; cases hw
          | ok w =>
            rw [hm] at hw
            cases hw
            refine (memWrite_sameLatch hm fun hport => ?_ : SameLatch (r.2.setFlags _) w.2)
            rw [readOperand, memRead_ppuPort s hport] at hr
            cases hr
        | reg r' => rw [ho] at hw; cases hw; cases r' <;> exact ⟨rfl, rfl⟩
        | const k => rw [ho] at hw; cases hw
        | nil => rw [ho] at hw; cases hw

/-- An operation that is no store leaves the latch and PPUCTRL alone. -/
theorem operationOf_sameLatch {mn : Mnemonic} (hs : mn.isStore = false) {pc0 : Word} {m : Addressed} {s t : State}
    (h : operationOf mn pc0 m s = .ok t) : SameLatch s t := by
  cases mn with
  | sta | stx | sty => exact absurd hs (by decide)
  | inc => exact modify_sameLatch (f := Machine.inc) h
  | dec => exact modify_sameLatch (f := Machine.dec) h
  | asl => exact modify_sameLatch (f := Machine.asl) h
  | lsr => exact modify_sameLatch (f := Machine.lsr) h
  | rol => exact modify_sameLatch (f := Machine.rol) h
  | ror => exact modify_sameLatch (f := Machine.ror) h
  | pha =>
    rw [show operationOf .pha pc0 m s = push s.a s from rfl, push_eq] at h
    cases h
    exact ⟨rfl, rfl⟩
  | php =>
    rw [show operationOf .php pc0 m s = push (getP s.flags ||| 0x30) s from rfl, push_eq] at h
    cases h
    exact ⟨rfl, rfl⟩
  | jsr =>
    simp only [operationOf, opJsr, withTarget, push16_eq, ok_bind] at h
    split at h
    · cases h
      exact ⟨rfl, rfl⟩
    · cases h
  | brk =>
    rw [show operationOf .brk pc0 m s = takeException (pc0 + 2) (getP s.flags ||| 0x30) irqVector s from rfl,
      takeException_eq _ _ _ (by decide) (by decide)] at h
    cases h
    exact ⟨rfl, rfl⟩
  | _ =>
    obtain ⟨u, hu, hcore, -⟩ := quiet_operationOf _ m rfl rfl (fun hm => absurd hm (by decide)) pc0 s t h
    rw [hcore]
    exact (readsTo_sameLatch hu : SameLatch s u)

theorem operationOf_store_latchedBy {mn : Mnemonic} (hs : mn.isStore = true) {pc0 : Word} {m : Addressed} {s t : State}
    (h : operationOf mn pc0 m s = .ok t) : LatchedBy s t := by
  cases mn with
  | sta | stx | sty => exact writeOperand_latchedBy h
  | _ => exact absurd hs (by decide)

/-- A store's address needs no pointer outside page zero, so nothing is read through the bus before its write (R124). -/
theorem addressingOf_store_ne_ind (i : Instr) (addr : Word) (hs : (mnemonicOf i).isStore = true) :
    addressingOf i ≠ .ind addr := by
  cases i with
  | jmpInd _ => cases hs
  | _ => exact nofun

/-- Settles O17: a store is one bus write (`memWrite_latchedBy`) in a state with the devices of the start, and everything else
leaves the latch and PPUCTRL alone (`operationOf_sameLatch`). -/
theorem nmiLatchSources : Obligations.NmiLatchSources := by
  intro i s t h
  obtain ⟨base, marked, n, hrun, -⟩ := exec_eq_runInstr i
  rw [hrun] at h
  obtain ⟨a, u, hmode, hop⟩ := runInstr_next h
  cases hs : (mnemonicOf i).isStore with
  | false =>
    have hu := readsTo_sameLatch (Addressing.mode_readsTo hmode)
    have hsame : SameLatch s (if marked && a.cross then addCycles 1 u else u) := by
      split <;> exact hu
    exact (hsame.trans (operationOf_sameLatch hs hop)).latchedBy
  | true =>
    obtain ⟨addr, hind⟩ | hstill := (addressingOf i).still
    · exact absurd hind (addressingOf_store_ne_ind i addr hs)
    · obtain ⟨a', hmode'⟩ := hstill (s.prepared n base)
      rw [hmode'] at hmode
      cases hmode
      have hl := operationOf_store_latchedBy hs hop
      split at hl <;> exact hl

end Sys2Proof.Machine
end

section
/-! The instructions with an operand, row by row (41_load_store_transfer.md R200–R206; 42_arithmetic_logic.md R230–R249): each
table's rows run one operation behind the mode of the form, and the three shapes of such an instruction say what it leaves. -/

namespace Sys2Proof.Machine

/-! Rows -/

/-- The addressing mode of a form (R132–R142). -/
def Form.mode : Form → Mode
  | .imm v => modeImm v
  | .mem p => p.mode

/-- Every row of a table over forms is its encoding, and the operation behind the form's mode (R124). -/
def FormRows (rows : Form → Option Row) (op : Operation) : Prop := ∀ f r, rows f = some r →
  encode r.instr = r.opcode :: f.bytes ∧ ∀ s, exec r.instr s = runInstr r.cycles r.pageCycle f.bytes.length f.mode op s

/-- Every row of a table over memory forms is its encoding, and the operation behind the form's mode (R124). -/
def PlaceRows (rows : Place → Option Row) (op : Operation) : Prop := ∀ p r, rows p = some r →
  encode r.instr = r.opcode :: p.bytes ∧ ∀ s, exec r.instr s = runInstr r.cycles r.pageCycle p.bytes.length p.mode op s

theorem formRows_lda : FormRows rowsLda opLda := by
  rintro (v | v | v | v | v | v | v | v | v) r h <;> cases h <;> exact ⟨rfl, fun _ => rfl⟩

theorem formRows_ldx : FormRows rowsLdx opLdx := by
  rintro (v | v | v | v | v | v | v | v | v) r h <;> cases h <;> exact ⟨rfl, fun _ => rfl⟩

theorem formRows_ldy : FormRows rowsLdy opLdy := by
  rintro (v | v | v | v | v | v | v | v | v) r h <;> cases h <;> exact ⟨rfl, fun _ => rfl⟩

theorem formRows_adc : FormRows rowsAdc opAdc := by
  rintro (v | v | v | v | v | v | v | v | v) r h <;> cases h <;> exact ⟨rfl, fun _ => rfl⟩

theorem formRows_sbc : FormRows rowsSbc opSbc := by
  rintro (v | v | v | v | v | v | v | v | v) r h <;> cases h <;> exact ⟨rfl, fun _ => rfl⟩

theorem formRows_and : FormRows rowsAnd opAnd := by
  rintro (v | v | v | v | v | v | v | v | v) r h <;> cases h <;> exact ⟨rfl, fun _ => rfl⟩

theorem formRows_ora : FormRows rowsOra opOra := by
  rintro (v | v | v | v | v | v | v | v | v) r h <;> cases h <;> exact ⟨rfl, fun _ => rfl⟩

theorem formRows_eor : FormRows rowsEor opEor := by
  rintro (v | v | v | v | v | v | v | v | v) r h <;> cases h <;> exact ⟨rfl, fun _ => rfl⟩

theorem formRows_bit : FormRows rowsBit opBit := by
  rintro (v | v | v | v | v | v | v | v | v) r h <;> cases h <;> exact ⟨rfl, fun _ => rfl⟩

theorem formRows_cmp : FormRows rowsCmp opCmp := by
  rintro (v | v | v | v | v | v | v | v | v) r h <;> cases h <;> exact ⟨rfl, fun _ => rfl⟩

theorem formRows_cpx : FormRows rowsCpx opCpx := by
  rintro (v | v | v | v | v | v | v | v | v) r h <;> cases h <;> exact ⟨rfl, fun _ => rfl⟩

theorem formRows_cpy : FormRows rowsCpy opCpy := by
  rintro (v | v | v | v | v | v | v | v | v) r h <;> cases h <;> exact ⟨rfl, fun _ => rfl⟩

theorem placeRows_sta : PlaceRows rowsSta opSta := by
  rintro (v | v | v | v | v | v | v | v) r h <;> cases h <;> exact ⟨rfl, fun _ => rfl⟩

theorem placeRows_stx : PlaceRows rowsStx opStx := by
  rintro (v | v | v | v | v | v | v | v) r h <;> cases h <;> exact ⟨rfl, fun _ => rfl⟩

theorem placeRows_sty : PlaceRows rowsSty opSty := by
  rintro (v | v | v | v | v | v | v | v) r h <;> cases h <;> exact ⟨rfl, fun _ => rfl⟩

theorem placeRows_inc : PlaceRows rowsInc opInc := by
  rintro (v | v | v | v | v | v | v | v) r h <;> cases h <;> exact ⟨rfl, fun _ => rfl⟩

theorem placeRows_dec : PlaceRows rowsDec opDec := by
  rintro (v | v | v | v | v | v | v | v) r h <;> cases h <;> exact ⟨rfl, fun _ => rfl⟩

theorem placeRows_asl : PlaceRows rowsAsl opAsl := by
  rintro (v | v | v | v | v | v | v | v) r h <;> cases h <;> exact ⟨rfl, fun _ => rfl⟩

theorem placeRows_lsr : PlaceRows rowsLsr opLsr := by
  rintro (v | v | v | v | v | v | v | v) r h <;> cases h <;> exact ⟨rfl, fun _ => rfl⟩

theorem placeRows_rol : PlaceRows rowsRol opRol := by
  rintro (v | v | v | v | v | v | v | v) r h <;> cases h <;> exact ⟨rfl, fun _ => rfl⟩

theorem placeRows_ror : PlaceRows rowsRor opRor := by
  rintro (v | v | v | v | v | v | v | v) r h <;> cases h <;> exact ⟨rfl, fun _ => rfl⟩

/-! What reads its operand -/

/-- An immediate crosses no page, so a mark costs nothing (R132). -/
theorem runInstr_imm_marked (base : Nat) (marked : Bool) (v : Byte) (op : Operation) (s : State) :
    runInstr base marked 1 (modeImm v) op s = runInstr base false 1 (modeImm v) op s := by
  cases marked <;> rfl

/-- A table whose operation reads M and then changes the core's registers has the effect of its statement (R163, R200). -/
theorem readsOperand_of {rows : Form → Option Row} {op : Operation} {effect : Byte → State → State} (hrows : FormRows rows op)
    (hop : ∀ pc0 m u, op pc0 m u = (readOperand pc0 m.opnd u >>= fun r => .ok (effect r.1 r.2)))
    (heff : ∀ m (t : State) pc k, effect m ((t.setPc pc).setStepCycles k) = { effect m t with pc := pc, stepCycles := k }) :
    ReadsOperand rows effect := by
  intro f r s h
  obtain ⟨hencode, hexec⟩ := hrows f r h
  refine ⟨hencode, ?_⟩
  cases f with
  | imm v =>
    exact readsImmediate ((hexec s).trans (runInstr_imm_marked ..)) (fun pc0 c u => hop pc0 ⟨.const v, c⟩ u) heff
  | mem p => exact readsMemory (hexec s) (fun pc0 c u => hop pc0 ⟨.ram (p.ea s), c⟩ u) heff

/-- Settles O34: a load is the operand's read, then the register and N and Z. -/
theorem loads : Obligations.Loads :=
  ⟨readsOperand_of formRows_lda (fun _ _ _ => rfl) fun _ _ _ _ => rfl,
    readsOperand_of formRows_ldx (fun _ _ _ => rfl) fun _ _ _ _ => rfl,
    readsOperand_of formRows_ldy (fun _ _ _ => rfl) fun _ _ _ _ => rfl⟩

/-- Settles O44: the operand's read, then A and N and Z from the bitwise result. -/
theorem logicalInstructions : Obligations.LogicalInstructions :=
  ⟨readsOperand_of formRows_and (fun _ _ _ => rfl) fun _ _ _ _ => rfl,
    readsOperand_of formRows_ora (fun _ _ _ => rfl) fun _ _ _ _ => rfl,
    readsOperand_of formRows_eor (fun _ _ _ => rfl) fun _ _ _ _ => rfl⟩

/-- Settles O45: the operand's read, then flags alone. -/
theorem bitAndCompares : Obligations.BitAndCompares :=
  ⟨readsOperand_of formRows_bit (fun _ _ _ => rfl) fun _ _ _ _ => rfl,
    readsOperand_of formRows_cmp (fun _ _ _ => rfl) fun _ _ _ _ => rfl,
    readsOperand_of formRows_cpx (fun _ _ _ => rfl) fun _ _ _ _ => rfl,
    readsOperand_of formRows_cpy (fun _ _ _ => rfl) fun _ _ _ _ => rfl⟩

theorem bne_zero_eq_decide (x : Byte) : (x != 0) = decide (x ≠ 0) := by
  rw [Bool.eq_iff_iff, bne_iff_ne, decide_eq_true_iff]

/-- Settles O41: the operand's read, then the sum and its flags (`adc`), V written as a proposition. -/
theorem addWithCarry : Obligations.AddWithCarry := by
  refine readsOperand_of formRows_adc (fun pc0 m u => ?_) fun _ _ _ _ => rfl
  simp only [opAdc, accumulate, adc, overflow, bne_zero_eq_decide]
  rfl

/-- Settles O42: the operand's read, then the difference and its flags (`sbc`), V written as a proposition. -/
theorem subtractWithBorrow : Obligations.SubtractWithBorrow := by
  refine readsOperand_of formRows_sbc (fun pc0 m u => ?_) fun _ _ _ _ => rfl
  simp only [opSbc, accumulate, sbc, bne_zero_eq_decide]
  rfl

/-! What stores a register -/

theorem storesRegister_of {rows : Place → Option Row} {op : Operation} {value : State → Byte} (hrows : PlaceRows rows op)
    (hop : ∀ pc0 m u, op pc0 m u = writeOperand pc0 m.opnd (value u) u)
    (hv : ∀ (s : State) pc k, value ((s.setPc pc).setStepCycles k) = value s) : StoresRegister rows value := by
  intro p r s h
  obtain ⟨hencode, hexec⟩ := hrows p r h
  exact ⟨hencode, storesMemory (hexec s) (fun pc0 c u => hop pc0 ⟨.ram (p.ea s), c⟩ u) (hv s)⟩

/-- Settles O35: a store is one bus write of its register at EA. -/
theorem stores : Obligations.Stores :=
  ⟨storesRegister_of placeRows_sta (fun _ _ _ => rfl) fun _ _ _ => rfl,
    storesRegister_of placeRows_stx (fun _ _ _ => rfl) fun _ _ _ => rfl,
    storesRegister_of placeRows_sty (fun _ _ _ => rfl) fun _ _ _ => rfl⟩

/-! What reads and writes back -/

/-- A read-modify-write's function, as the statements write it: r and the new C from M and the old C. -/
def Carries (f : Byte → Flags → Byte × Flags) (op : Byte → Bool → Byte × Bool) : Prop :=
  ∀ m flags, f m flags = ((op m flags.c).1, { flags with c := (op m flags.c).2 })

theorem readModifyWrites_of {rows : Place → Option Row} {f : Byte → Flags → Byte × Flags} {op : Byte → Bool → Byte × Bool}
    (hrows : PlaceRows rows (readModifyWrite f)) (hf : Carries f op) : ReadModifyWrites rows op := by
  intro p r s h
  obtain ⟨hencode, hexec⟩ := hrows p r h
  exact ⟨hencode, modifiesMemory (hexec s) hf⟩

/-- Settles O46: one read and one write with M + 1 or M - 1. -/
theorem incrementAndDecrementMemory : Obligations.IncrementAndDecrementMemory :=
  ⟨readModifyWrites_of placeRows_inc fun _ _ => rfl, readModifyWrites_of placeRows_dec fun _ _ => rfl⟩

theorem shiftLeft_eq (m : Byte) : m <<< 1 = BitVec.ofNat 8 (2 * m.toNat) := by
  revert m
  decide

theorem shiftRight_eq (m : Byte) : m >>> 1 = BitVec.ofNat 8 (m.toNat / 2) := by
  revert m
  decide

/-- The old C comes in at bit 0 (R248). -/
theorem rotateLeft_eq (m : Byte) (c : Bool) :
    (m <<< 1) ||| (if c then 1 else 0) = BitVec.ofNat 8 (2 * m.toNat + (if c then 1 else 0)) := by
  revert m c
  decide

/-- The old C comes in at bit 7 (R249). -/
theorem rotateRight_eq (m : Byte) (c : Bool) :
    (m >>> 1) ||| (if c then 0x80 else 0) = BitVec.ofNat 8 (m.toNat / 2 + (if c then 128 else 0)) := by
  revert m c
  decide

theorem carries_asl : Carries asl fun m _ => (BitVec.ofNat 8 (2 * m.toNat), m.getLsbD 7) := fun m _ => by
  rw [asl, shiftLeft_eq]

theorem carries_lsr : Carries lsr fun m _ => (BitVec.ofNat 8 (m.toNat / 2), m.getLsbD 0) := fun m _ => by
  rw [lsr, shiftRight_eq]

theorem carries_rol : Carries rol fun m c => (BitVec.ofNat 8 (2 * m.toNat + (if c then 1 else 0)), m.getLsbD 7) := fun m _ => by
  rw [rol, rotateLeft_eq]

theorem carries_ror : Carries ror fun m c => (BitVec.ofNat 8 (m.toNat / 2 + (if c then 128 else 0)), m.getLsbD 0) :=
  fun m _ => by rw [ror, rotateRight_eq]

/-- On A a read-modify-write is its function and N and Z, in 2 cycles (R131). -/
theorem actsAlone_of_carries {i : Instr} {opcode : Byte} {f : Byte → Flags → Byte × Flags} {op : Byte → Bool → Byte × Bool}
    (hencode : encode i = [opcode]) (hexec : ∀ s, exec i s = runInstr 2 false 0 modeAcc (readModifyWrite f) s)
    (hf : Carries f op) :
    ActsAlone i opcode fun s =>
      { s with
        a := (op s.a s.flags.c).1, flags := { nzFrom (op s.a s.flags.c).1 s.flags with c := (op s.a s.flags.c).2 } } := by
  refine fun s => ⟨hencode, ?_⟩
  rw [hexec, runInstr_accumulator]
  have hop : readModifyWrite f s.pc ⟨.reg .a, false⟩ (s.prepared 0 2) =
      .ok (((s.prepared 0 2).setA (f s.a s.flags).1).setFlags (setNZ (f s.a s.flags).1 (f s.a s.flags).2)) := rfl
  rw [hop, hf]
  rfl

/-- Settles O48: the shifts' and rotates' functions (`Carries`), on memory and on A. -/
theorem shiftsAndRotates : Obligations.ShiftsAndRotates :=
  ⟨readModifyWrites_of placeRows_asl carries_asl, readModifyWrites_of placeRows_lsr carries_lsr,
    readModifyWrites_of placeRows_rol carries_rol, readModifyWrites_of placeRows_ror carries_ror,
    actsAlone_of_carries rfl (fun _ => rfl) carries_asl, actsAlone_of_carries rfl (fun _ => rfl) carries_lsr,
    actsAlone_of_carries rfl (fun _ => rfl) carries_rol, actsAlone_of_carries rfl (fun _ => rfl) carries_ror⟩

/-! What C and V mean -/

/-- Bit 7 of a byte as its value (R34). -/
theorem getLsbD_seven (x : Byte) : x.getLsbD 7 = decide (128 ≤ x.toNat) := by
  revert x
  decide

/-- The signed value of a byte (R231). -/
theorem toInt_eq (x : Byte) : x.toInt = x.toNat - (if 128 ≤ x.toNat then 256 else 0) := by
  revert x
  decide

theorem complement_toNat (m : Byte) : (m ^^^ 0xFF).toNat = 255 - m.toNat := by
  revert m
  decide

theorem and_signBit_ne_zero (x : Byte) : ((x &&& 0x80) != 0) = x.getLsbD 7 := by
  revert x
  decide

/-- The narrowed sum's value. -/
theorem adcResult_toNat (a m : Byte) (c : Bool) : (BitVec.ofNat 8 (adcSum a m c)).toNat = adcSum a m c % 256 :=
  BitVec.toNat_ofNat ..

/-- V of a sum by the signs of its parts and of its result (R231). -/
theorem overflow_eq (a m r : Byte) : overflow a m r =
    (a.getLsbD 7 != r.getLsbD 7 && m.getLsbD 7 != r.getLsbD 7) := by
  rw [overflow, and_signBit_ne_zero, BitVec.getLsbD_and, BitVec.getLsbD_xor, BitVec.getLsbD_xor]

/-- V says that the signed sum does not fit a byte (R34, R231). -/
theorem adc_v (a m : Byte) (f : Flags) :
    (adc a m f).2.v = decide (a.toInt + m.toInt + bit f.c < -128 ∨ 127 < a.toInt + m.toInt + bit f.c) := by
  have ha := a.isLt
  have hm := m.isLt
  have hc : bit f.c ≤ 1 := by cases f.c <;> simp [bit]
  have hr := adcResult_toNat a m f.c
  rw [show (adc a m f).2.v = overflow a m (BitVec.ofNat 8 (adcSum a m f.c)) from rfl, overflow_eq, getLsbD_seven,
    getLsbD_seven, getLsbD_seven, hr, toInt_eq, toInt_eq, adcSum, Bool.eq_iff_iff]
  simp only [Bool.and_eq_true, bne_iff_ne, ne_eq, decide_eq_decide, decide_eq_true_eq]
  split_ifs <;> omega

/-- SBC is ADC of the complement: V by the signs of A, M and r is V of that sum (R232). -/
theorem sbc_eq_adc (a m : Byte) (f : Flags) : sbc a m f = adc a (m ^^^ 0xFF) f := by
  have hv : ∀ r : Byte, (((a ^^^ m) &&& (a ^^^ r) &&& 0x80) != 0) = overflow a (m ^^^ 0xFF) r := by
    intro r
    have hff : (0xFF : Byte).getLsbD 7 = true := rfl
    rw [overflow_eq, and_signBit_ne_zero, BitVec.getLsbD_and, BitVec.getLsbD_xor, BitVec.getLsbD_xor, BitVec.getLsbD_xor,
      hff]
    cases a.getLsbD 7 <;> cases m.getLsbD 7 <;> cases r.getLsbD 7 <;> rfl
  simp only [sbc, adc, hv]

/-- Settles O43: the narrowed sum and its carry are the exact sum, V is the signed range (`adc_v`), and SBC is ADC of the
complement (`sbc_eq_adc`), whose value is 255 - M. -/
theorem carryAndOverflowMean : Obligations.CarryAndOverflowMean := by
  intro a m f carry
  have ha := a.isLt
  have hm := m.isLt
  have hcarry : bit f.c = carry := rfl
  have hc : carry ≤ 1 := by cases h : f.c <;> simp [carry, h]
  refine ⟨?_, adc_v a m f, ?_, ?_, sbc_eq_adc a m f⟩
  · rw [show (adc a m f).1 = BitVec.ofNat 8 (adcSum a m f.c) from rfl, adcResult_toNat,
      show (adc a m f).2.c = decide (0xFF < adcSum a m f.c) from rfl]
    simp only [adcSum, hcarry, decide_eq_true_eq]
    clear_value carry
    split <;> omega
  · simp only [sbc, setNZ, adcSum, complement_toNat, hcarry, decide_eq_decide]
    omega
  · rw [sbc_eq_adc, adc_v, toInt_eq, toInt_eq m, toInt_eq (m ^^^ 0xFF), complement_toNat, hcarry, decide_eq_decide]
    split_ifs <;> omega

end Sys2Proof.Machine
end

section
/-! What a store reaches (20_memory.md R61, R63; 40_step.md R165): the one bus write at EA that every storing row makes, and what
such a write leaves alone. -/

namespace Sys2Proof.Machine

/-- What an observation of an address that is no port depends on, in the region of the address (R62, R63, R90). -/
theorem memObserve_congr_byRegion {a : Word} {s t : State} (hport : isPort a = false)
    (hram : a.toNat ≤ 0x1FFF → t.ram.read (a.toNat % 2048) = s.ram.read (a.toNat % 2048)) (hcart : t.cart = s.cart)
    (hcartRam : 0x6000 ≤ a.toNat → a.toNat < 0x8000 → t.cartRam.read (a.toNat - 0x6000) = s.cartRam.read (a.toNat - 0x6000))
    (hmmc1 : 0x8000 ≤ a.toNat → t.mmc1 = s.mmc1) : memObserve a t = memObserve a s := by
  by_cases hprg : 0x8000 ≤ a.toNat
  · rw [memObserve_prg t hprg, memObserve_prg s hprg, hcart]
    simp only [prgOffset, prgPage, hcart, hmmc1 hprg]
  by_cases hlow : a.toNat ≤ 0x1FFF
  · simp only [memObserve, memRead_ram _ hlow, hram hlow]
  have hppu : ¬ a.toNat ≤ 0x3FFF := fun h => by
    simp [isPort, show 0x2000 ≤ a.toNat by omega, show a.toNat < 0x4000 by omega] at hport
  have hpad : ¬ a.toNat = 0x4016 := fun h => by
    simp [isPort, show a = 0x4016 from BitVec.eq_of_toNat_eq h] at hport
  simp only [memObserve, memRead, hlow, hppu, hpad, if_false, cartRead, hprg, hcart]
  by_cases hram : 0x6000 ≤ a.toNat
  · simp only [hcartRam hram (by omega)]
    split_ifs <;> rfl
  · simp only [hram, false_and, if_false]
    split_ifs <;> rfl

/-- What a store at `ea` may not change from `s` to `t`. -/
def StoreFrame (ea : Word) (s t : State) : Prop :=
  (∀ a : Word, isPort a = false → sameCell a ea = false → ¬ (0x8000 ≤ a.toNat ∧ 0x8000 ≤ ea.toNat) →
    memObserve a t = memObserve a s) ∧
  t.cart = s.cart ∧
  (¬ isPpuPort ea 7 → t.ppu.ciram = s.ppu.ciram ∧ t.ppu.pal = s.ppu.pal ∧ t.chrRam = s.chrRam) ∧
  (¬ isPpuPort ea 4 → ea ≠ 0x4014 → t.ppu.oam = s.ppu.oam)

theorem StoreFrame.trans {ea : Word} {s t u : State} (h : StoreFrame ea s t) (h' : StoreFrame ea t u) : StoreFrame ea s u := by
  obtain ⟨hobs, hcart, hppu, hoam⟩ := h
  obtain ⟨hobs', hcart', hppu', hoam'⟩ := h'
  refine ⟨fun a h1 h2 h3 => (hobs' a h1 h2 h3).trans (hobs a h1 h2 h3), hcart'.trans hcart, fun h7 => ?_,
    fun h4 hdma => (hoam' h4 hdma).trans (hoam h4 hdma)⟩
  obtain ⟨hc, hp, hr⟩ := hppu h7
  obtain ⟨hc', hp', hr'⟩ := hppu' h7
  exact ⟨hc'.trans hc, hp'.trans hp, hr'.trans hr⟩

/-- What changes nothing that an observation of storage sees, nor a memory of the PPU. -/
theorem storeFrame_of_storage {ea : Word} {s t : State} (hram : t.ram = s.ram) (hcart : t.cart = s.cart)
    (hcartRam : t.cartRam = s.cartRam) (hmmc1 : t.mmc1 = s.mmc1)
    (hppu : ¬ isPpuPort ea 7 → t.ppu.ciram = s.ppu.ciram ∧ t.ppu.pal = s.ppu.pal ∧ t.chrRam = s.chrRam)
    (hoam : ¬ isPpuPort ea 4 → ea ≠ 0x4014 → t.ppu.oam = s.ppu.oam) : StoreFrame ea s t :=
  ⟨fun _ ha _ _ => memObserve_congr ha (fun _ => by rw [hram]) hcart hmmc1 hcartRam, hcart, hppu, hoam⟩

/-- The flags, PC and the cycle count are in no store's frame. -/
theorem storeFrame_core {ea : Word} {s : State} {f : Flags} {pc : Word} {k : Nat} :
    StoreFrame ea s { s with flags := f, pc := pc, stepCycles := k } :=
  storeFrame_of_storage rfl rfl rfl rfl (fun _ => ⟨rfl, rfl, rfl⟩) fun _ _ => rfl

theorem storeFrame_of_memRead {ea a : Word} {d : Byte} {s t : State} (h : memRead a s = .ok (d, t)) : StoreFrame ea s t := by
  obtain ⟨_, _, _, _, _, _, rfl, -⟩ := memRead_frame h
  exact storeFrame_of_storage rfl rfl rfl rfl (fun _ => ⟨rfl, rfl, rfl⟩) fun _ _ => rfl

/-- The OAM-DMA changes OAM alone of what a store's frame looks at (R175). -/
theorem storeFrame_of_oamDma {d : Byte} {s t : State} (h : oamDmaCopy d 256 s = .ok t) : StoreFrame 0x4014 s t :=
  oamDmaCopy_ok (P := StoreFrame 0x4014 s) (fun hr hp => hp.trans (storeFrame_of_memRead hr))
    (fun _ _ hp => hp.trans
      (storeFrame_of_storage rfl rfl rfl rfl (fun _ => ⟨rfl, rfl, rfl⟩) fun _ hne => absurd rfl hne))
    d 256 h (storeFrame_of_storage rfl rfl rfl rfl (fun _ => ⟨rfl, rfl, rfl⟩) fun _ _ => rfl)

theorem storeFrame_of_port {ea : Word} {p : Nat} {d : Byte} {s t : State} (hp : isPpuPort ea p)
    (h : portWrite p d s = .ok t) : StoreFrame ea s t := by
  rcases portWrite_cases hp.lt h with ⟨-, rfl⟩ | ⟨rfl, rfl⟩ | ⟨_, _, _, _, _, _, _, rfl⟩ | ⟨rfl, _, _, _, _, rfl⟩
  · exact storeFrame_of_storage rfl rfl rfl rfl (fun _ => ⟨rfl, rfl, rfl⟩) fun _ _ => rfl
  · exact storeFrame_of_storage rfl rfl rfl rfl (fun _ => ⟨rfl, rfl, rfl⟩) fun h4 _ => absurd hp h4
  · exact storeFrame_of_storage rfl rfl rfl rfl (fun _ => ⟨rfl, rfl, rfl⟩) fun _ _ => rfl
  · exact storeFrame_of_storage rfl rfl rfl rfl (fun h7 => absurd hp h7) fun _ _ => rfl

/-- A write changes no byte outside the one at its address (R61, R63). -/
theorem storeFrame_of_memWrite {ea : Word} {d : Byte} {k : Nat} {s t : State} (h : memWrite ea d s = .ok (k, t)) :
    StoreFrame ea s t := by
  rcases memWrite_cases h with ⟨hea, rfl⟩ | ⟨p, hp, hport⟩ | ⟨rfl, hdma⟩ | ⟨-, rfl⟩ | rfl | ⟨hlow, hhigh, rfl⟩ | ⟨hea, rfl⟩
  · refine ⟨fun a ha hcell _ => memObserve_congr ha (fun hlow => Memory.read_write_other _ _ _ fun heq => ?_) rfl rfl rfl, rfl,
      fun _ => ⟨rfl, rfl, rfl⟩, fun _ _ => rfl⟩
    simp [sameCell, hea, show a.toNat < 0x2000 by omega, heq] at hcell
  · exact storeFrame_of_port hp hport
  · exact storeFrame_of_oamDma hdma
  · exact storeFrame_of_storage rfl rfl rfl rfl (fun _ => ⟨rfl, rfl, rfl⟩) fun _ _ => rfl
  · exact storeFrame_of_storage rfl rfl rfl rfl (fun _ => ⟨rfl, rfl, rfl⟩) fun _ _ => rfl
  · refine ⟨fun a ha hcell _ => memObserve_congr_byRegion ha (fun _ => rfl) rfl
      (fun h1 h2 => Memory.read_write_other _ _ _ fun heq => ?_) fun _ => rfl, rfl, fun _ => ⟨rfl, rfl, rfl⟩, fun _ _ => rfl⟩
    simp [sameCell, BitVec.eq_of_toNat_eq (show a.toNat = ea.toNat by omega)] at hcell
  · exact ⟨fun a ha _ hboth => memObserve_congr_byRegion ha (fun _ => rfl) rfl (fun _ _ => rfl)
      fun h => absurd ⟨h, hea⟩ hboth, rfl, fun _ => ⟨rfl, rfl, rfl⟩, fun _ _ => rfl⟩

/-- A table's rows that complete change nothing outside the frame of a store at EA. -/
def StoresAtEa (rows : Place → Option Row) : Prop := ∀ (p : Place) (r : Row) (s t : State), rows p = some r →
  exec r.instr s = .next t → StoreFrame (p.ea s) s t

theorem storesAtEa_of_stores {rows : Place → Option Row} {value : State → Byte} (h : StoresRegister rows value) :
    StoresAtEa rows := by
  intro p r s t hr ht
  obtain ⟨-, h⟩ := h p r s hr
  cases hf : writeFault s (p.ea s) (value s) with
  | some e =>
    simp only [hf] at h
    obtain ⟨s1, -, hexec⟩ := h
    rw [hexec] at ht
    cases ht
  | none =>
    simp only [hf] at h
    obtain ⟨s1, hw, hexec⟩ := h
    rw [hexec] at ht
    cases ht
    exact (storeFrame_of_memWrite hw).trans storeFrame_core

theorem storesAtEa_of_modifies {rows : Place → Option Row} {op : Byte → Bool → Byte × Bool} (h : ReadModifyWrites rows op) :
    StoresAtEa rows := by
  intro p r s t hr ht
  obtain ⟨-, h⟩ := h p r s hr
  cases hm : rmwFault s (p.ea s) with
  | some e =>
    simp only [hm] at h
    rw [h] at ht
    cases ht
  | none =>
    cases hf : readFault s (p.ea s) with
    | some e =>
      simp only [hm, hf] at h
      rw [h] at ht
      cases ht
    | none =>
      simp only [hm, hf] at h
      obtain ⟨m, s1, hread, h⟩ := h
      cases hwf : writeFault s1 (p.ea s) (op m s.flags.c).1 with
      | some e =>
        simp only [hwf] at h
        rw [h] at ht
        cases ht
      | none =>
        simp only [hwf] at h
        obtain ⟨s2, hw, hexec⟩ := h
        rw [hexec] at ht
        cases ht
        exact ((storeFrame_of_memRead hread).trans (storeFrame_of_memWrite hw)).trans storeFrame_core

/-- Settles O37: every storing row makes one bus write at EA, after at most one read there (`stores`,
`incrementAndDecrementMemory`, `shiftsAndRotates`), and such a write keeps the frame (`storeFrame_of_memWrite`). -/
theorem storingInstructionsFrame : Obligations.StoringInstructionsFrame := by
  obtain ⟨hsta, hstx, hsty⟩ := stores
  obtain ⟨hinc, hdec⟩ := incrementAndDecrementMemory
  obtain ⟨hasl, hlsr, hrol, hror, -⟩ := shiftsAndRotates
  have hall : ∀ rows ∈ storingRows, StoresAtEa rows := by
    simp only [storingRows, List.forall_mem_cons]
    exact ⟨storesAtEa_of_stores hsta, storesAtEa_of_stores hstx, storesAtEa_of_stores hsty, storesAtEa_of_modifies hinc,
      storesAtEa_of_modifies hdec, storesAtEa_of_modifies hasl, storesAtEa_of_modifies hlsr, storesAtEa_of_modifies hrol,
      storesAtEa_of_modifies hror, List.forall_mem_nil _⟩
  exact hall

/-! Jumps and branches -/

/-- The second pointer byte's address, as a mask (R140). -/
theorem samePageNext_eq (addr : Word) : samePageNext addr = (addr &&& 0xFF00) ||| ((addr + 1) &&& 0x00FF) := by
  have hlow : lowByte addr + 1 = (addr + 1).setWidth 8 := (BitVec.setWidth_add addr 1 (by omega)).symm
  rw [samePageNext, hlow]
  apply BitVec.eq_of_getLsbD_eq
  intro i hi
  simp only [mkWord, highByte, BitVec.getLsbD_append, BitVec.getLsbD_or, BitVec.getLsbD_and, BitVec.getLsbD_setWidth,
    BitVec.getLsbD_ushiftRight]
  interval_cases i <;> simp

/-- JMP's indirect form: two reads in the prepared state, then the jump (R140, R271). -/
theorem exec_jmpInd (addr : Word) (s : State) : exec (.jmpInd addr) s = toOutcome (do
    let (lo, s1) ← memRead addr (s.prepared 2 5)
    let (hi, s2) ← memRead (samePageNext addr) s1
    .ok (s2.setPc (mkWord lo hi))) := by
  have hrun : exec (.jmpInd addr) s =
      toOutcome (modeInd addr (s.prepared 2 5) >>= fun r => opJmp s.pc r.1 r.2) := by
    show runInstr 5 false 2 (modeInd addr) opJmp s = _
    rw [runInstr, advance_pc]
    rfl
  rw [hrun, modeInd]
  cases memRead addr (s.prepared 2 5) with
  | error e => rfl
  | ok r =>
    simp only [ok_bind]
    cases memRead (samePageNext addr) r.2 <;> rfl

/-- Settles O49: the absolute form is a jump; the indirect form is two reads, each faulting or answering as the bus says
(`memRead_fault`), in the prepared state (`memRead_prepared`). -/
theorem jumps : Obligations.Jumps := by
  intro addr s hiAddr
  refine ⟨rfl, rfl, rfl, ?_⟩
  have hlo := memRead_fault addr s
  simp only [exec_jmpInd, memRead_fromPrepared, samePageNext_eq]
  cases hf : readFault s addr with
  | some e =>
    rw [hf] at hlo
    simp only [hlo]
    rfl
  | none =>
    rw [hf] at hlo
    obtain ⟨⟨lo, s1⟩, hlo⟩ := hlo
    have hhi := memRead_fault hiAddr s1
    rw [readFault_congr (memRead_core_kept hlo).2] at hhi
    cases hf' : readFault s hiAddr with
    | some e =>
      rw [hf'] at hhi
      refine ⟨lo, s1, hlo, ?_⟩
      simp only [hlo, onPair_ok, ok_bind, memRead_prepared, show (addr &&& 0xFF00) ||| ((addr + 1) &&& 0x00FF) = hiAddr from rfl,
        hhi]
      rfl
    | none =>
      rw [hf'] at hhi
      obtain ⟨⟨hi, s2⟩, hhi⟩ := hhi
      refine ⟨lo, hi, s1, s2, hlo, hhi, ?_⟩
      simp only [hlo, onPair_ok, ok_bind, memRead_prepared, show (addr &&& 0xFF00) ||| ((addr + 1) &&& 0x00FF) = hiAddr from rfl,
        hhi, mkWord_eq_ofNat]
      rfl

/-- A branch, taken or not: the page test as the statement writes it (R136, R270). -/
theorem branches_of {mk : Byte → Instr} {opcode : Byte} {cond : Flags → Bool} (hencode : ∀ b1, encode (mk b1) = [opcode, b1])
    (hexec : ∀ b1 s, exec (mk b1) s = runInstr 2 false 1 (modeRel b1) (branch fun s => cond s.flags) s) :
    Branches mk opcode cond := by
  refine fun b1 s => ⟨hencode b1, ?_⟩
  rw [hexec, runInstr_relative, pageCross_mask, branch]
  cases hc : cond s.flags with
  | false =>
    rw [if_neg (show ¬ cond (s.prepared 1 2).flags = true by rw [show (s.prepared 1 2).flags = s.flags from rfl, hc]; simp)]
    rfl
  | true =>
    rw [if_pos (show cond (s.prepared 1 2).flags = true from hc)]
    simp only [withTarget, sext16]
    by_cases hpage : (s.pc + 2) &&& 0xFF00 = (s.pc + 2 + b1.signExtend 16) &&& 0xFF00
    · simp only [hpage, bne_self_eq_false, Bool.false_eq_true, if_false]
      rfl
    · simp only [if_neg hpage, bne_iff_ne.mpr hpage, if_true]
      rfl

/-- Settles O53: eight conditions over one branch (`branches_of`). -/
theorem conditionalBranches : Obligations.ConditionalBranches :=
  ⟨branches_of (fun _ => rfl) fun _ _ => rfl, branches_of (fun _ => rfl) fun _ _ => rfl, branches_of (fun _ => rfl) fun _ _ => rfl,
    branches_of (fun _ => rfl) fun _ _ => rfl, branches_of (fun _ => rfl) fun _ _ => rfl, branches_of (fun _ => rfl) fun _ _ => rfl,
    branches_of (fun _ => rfl) fun _ _ => rfl, branches_of (fun _ => rfl) fun _ _ => rfl⟩

end Sys2Proof.Machine
end

section
/-! Loads and resets (70_reset_and_hazards.md R370–R376; 00_scope.md R7): which images are accepted, what a load leaves, and that
canonical memories are equal where their bytes are. -/

namespace Sys2Proof.Machine

/-! Cartridge images -/

/-- The cartridge an image asks for, on a mapper. -/
def CartImage.cart (im : CartImage) (mapper : Mapper) : Cart :=
  { mapper := mapper, prgPages := im.prgPages, prg := im.prg, chrPages := im.chrPages, chr := im.chr,
    mirroring := im.mirroring, nromSram := im.nromSram }

/-- An image is accepted as the cartridge it asks for, where its mapper is known, it is not four-screen and nothing is wrong
with that cartridge (R7, R90). -/
theorem toCart_eq_ok_iff (im : CartImage) (c : Cart) : im.toCart = .ok c ↔
    ∃ mapper, Mapper.ofNumber im.mapperNumber = some mapper ∧ im.fourScreen = false ∧ (CartImage.cart im mapper).reject = none ∧
      c = CartImage.cart im mapper := by
  simp only [CartImage.toCart]
  cases hm : Mapper.ofNumber im.mapperNumber with
  | none => simp
  | some mapper =>
    cases hf : im.fourScreen with
    | true => simp
    | false =>
      simp only [Bool.false_eq_true, if_false, Option.some.injEq]
      show (match (CartImage.cart im mapper).reject with
        | some r => Except.error r
        | none => Except.ok (CartImage.cart im mapper)) = Except.ok c ↔ _
      cases hr : (CartImage.cart im mapper).reject <;> simp [hr, eq_comm]

/-- Nothing is wrong with a cartridge of proper bytes but its page counts (R7, R91, R92). -/
theorem reject_eq_none_iff {c : Cart} (hprg : Memory.wf (16384 * c.prgPages) c.prg = true)
    (hchr : Memory.wf (8192 * c.chrPages) c.chr = true) : c.reject = none ↔
      c.prgPages ≠ 0 ∧ ¬ (c.mapper = .nrom ∧ (2 < c.prgPages ∨ 1 < c.chrPages)) := by
  simp only [Cart.reject, hprg, hchr, Bool.not_true, Bool.false_eq_true, if_false]
  split_ifs with h1 h2 h3 <;> simp_all

/-- The known mappers (R90). -/
theorem mapper_ofNumber_iff (n : Nat) (m : Mapper) :
    Mapper.ofNumber n = some m ↔ (n = 0 ∧ m = .nrom) ∨ (n = 1 ∧ m = .mmc1) := by
  rcases n with _ | _ | n <;> cases m <;> simp [Mapper.ofNumber]

/-- An image of proper bytes is accepted exactly where the spec accepts it. -/
theorem exists_toCart_iff {im : CartImage} (hprg : Memory.wf (16384 * im.prgPages) im.prg = true)
    (hchr : Memory.wf (8192 * im.chrPages) im.chr = true) : (∃ c, im.toCart = .ok c) ↔
      ¬ ((im.mapperNumber ≠ 0 ∧ im.mapperNumber ≠ 1) ∨ im.fourScreen = true ∨ im.prgPages = 0 ∨
        (im.mapperNumber = 0 ∧ (2 < im.prgPages ∨ 1 < im.chrPages))) := by
  have hreject : ∀ m, (CartImage.cart im m).reject = none ↔
      im.prgPages ≠ 0 ∧ ¬ (m = .nrom ∧ (2 < im.prgPages ∨ 1 < im.chrPages)) := fun m => reject_eq_none_iff hprg hchr
  simp only [toCart_eq_ok_iff, mapper_ofNumber_iff, hreject]
  constructor
  · rintro ⟨_, mapper, ⟨hn, rfl⟩ | ⟨hn, rfl⟩, hfour, ⟨hp, hpages⟩, -⟩ (⟨h0, h1⟩ | h | h | ⟨h0, h⟩)
    · exact h0 hn
    · rw [hfour] at h; cases h
    · exact hp h
    · exact hpages ⟨rfl, h⟩
    · exact h1 hn
    · rw [hfour] at h; cases h
    · exact hp h
    · omega
  · intro h
    simp only [not_or, Bool.not_eq_true] at h
    obtain ⟨hn, hfour, hp, hpages⟩ := h
    by_cases h0 : im.mapperNumber = 0
    · exact ⟨_, .nrom, .inl ⟨h0, rfl⟩, hfour, ⟨hp, fun h => hpages ⟨h0, h.2⟩⟩, rfl⟩
    · exact ⟨_, .mmc1, .inr ⟨by omega, rfl⟩, hfour, ⟨hp, nofun⟩, rfl⟩

/-- A load answers what its image does (R370). -/
theorem load_cases (p : LoadParams) :
    (∃ c, p.image.toCart = .ok c ∧ load p = .next ((loadState p c).setPc (prgWord resetVector (loadState p c)))) ∨
      ∃ r, p.image.toCart = .error r ∧ load p = .refused (.cartridge r) := by
  cases h : p.image.toCart with
  | ok c => exact .inl ⟨c, rfl, load_eq h⟩
  | error r => exact .inr ⟨r, rfl, by rw [load, h]⟩

/-- Settles O2: a load refuses exactly the images that have no cartridge (`load_cases`), and those are the listed ones
(`exists_toCart_iff`). -/
theorem refusedCartridges : Obligations.RefusedCartridges := by
  intro p hprg hchr
  have hiff := exists_toCart_iff hprg hchr
  rcases load_cases p with ⟨c, hc, hl⟩ | ⟨r, hr, hl⟩
  · refine ⟨?_, .inl ⟨_, hl⟩⟩
    simp only [hl, reduceCtorEq, exists_false, false_iff]
    exact hiff.mp ⟨c, hc⟩
  · refine ⟨?_, .inr ⟨r, hl⟩⟩
    simp only [hr, reduceCtorEq, exists_false, false_iff, not_not] at hiff
    simp only [hl, hiff, iff_true]
    exact ⟨r, rfl⟩

/-! Loads -/

/-- Settles O1: the closed answer of a load (`load_eq`), PC as an observation of the loaded state (`observeWord_prg`), and the
cartridge that the image asked for (`toCart_eq_ok_iff`). -/
theorem loadedState : Obligations.LoadedState := by
  intro p c hc
  obtain ⟨mapper, -, -, -, rfl⟩ := (toCart_eq_ok_iff _ _).mp hc
  refine ⟨_, load_eq hc, ?_, rfl, rfl, rfl, rfl, rfl, rfl, rfl, rfl, rfl, rfl, rfl, rfl, rfl, rfl, rfl, rfl, rfl, rfl, rfl, rfl,
    rfl, rfl, rfl, rfl, rfl, rfl, rfl, rfl, rfl, rfl, rfl, rfl, rfl, rfl, rfl, rfl, rfl, rfl, rfl⟩
  rw [observeWord_prg _ (by decide) (by decide)]
  rfl

/-- Settles O3: each value is that of the written-out state, PC the word of the blank cartridge. -/
theorem resetState : Obligations.ResetState := by
  refine ⟨?_, rfl, rfl, rfl, rfl, rfl, rfl, rfl, rfl, rfl, rfl, rfl, rfl, rfl, rfl, rfl, rfl, rfl, rfl, rfl, rfl, rfl⟩
  rw [observeWord_prg _ (by decide) (by decide)]
  rfl

/-- Settles O4: the memories and counters by `reset_busInv`, and no cycle has been counted. -/
theorem resetHasInvariant : Obligations.ResetHasInvariant := (inv_iff _).mpr ⟨reset_busInv, rfl⟩

/-- Settles O5: the memories are the given ones, the cartridge is an accepted one (`toCart_wellFormed`), and the counters are 0 or
the given position. -/
theorem loadHasInvariant : Obligations.LoadHasInvariant := by
  intro p c hc hmem hscanline hdot
  refine ⟨_, load_eq hc, (inv_iff _).mpr ⟨(busInv_iff _).mpr ⟨?_, ⟨hscanline, hdot, Nat.zero_le 8, Nat.zero_lt_succ 4⟩,
    toCart_wellFormed hc⟩, rfl⟩⟩
  simp only [MemInit.wf, Bool.and_eq_true, and_assoc] at hmem
  exact hmem

/-! Canonical memories -/

/-- A canonical memory's cells are the bytes that are not the unlisted one. -/
theorem mem_iff_read {m : Memory} (hp : m.Pairwise fun c e => c.1 < e.1) (hn : ∀ c ∈ m, c.2 ≠ Memory.unlisted)
    (c : Host.Cell) : c ∈ m ↔ m.read c.1 = c.2 ∧ c.2 ≠ Memory.unlisted := by
  induction m with
  | nil => simp [eq_comm]
  | cons head rest ih =>
    obtain ⟨k, e⟩ := head
    obtain ⟨hhead, hrest⟩ := List.pairwise_cons.mp hp
    rw [List.mem_cons, ih hrest fun c hc => hn c (by simp [hc]), Memory.read]
    by_cases hk : k = c.1
    · have hnot : ¬ c ∈ rest := fun hc => (hhead c hc).ne hk
      rw [ih hrest fun c hc => hn c (by simp [hc])] at hnot
      rw [if_pos hk, or_iff_left hnot]
      refine ⟨?_, fun h => Prod.ext hk.symm h.1.symm⟩
      rintro rfl
      exact ⟨rfl, hn _ (by simp)⟩
    · rw [if_neg hk]
      exact or_iff_right fun hc => hk (by rw [hc])

/-- Settles O60: two canonical memories with the same bytes have the same cells (`mem_iff_read`), in one order. -/
theorem canonicalMemoriesAreEqual : Obligations.CanonicalMemoriesAreEqual := by
  intro size m n hm hn h
  obtain ⟨hmp, hms, hmn⟩ := (Memory.wf_iff size m).mp hm
  obtain ⟨hnp, hns, hnn⟩ := (Memory.wf_iff size n).mp hn
  refine @List.Pairwise.eq_of_mem_iff Host.Cell (fun c e => c.1 < e.1) ⟨fun _ _ h h' => absurd h h'.asymm⟩
    ⟨fun _ => lt_irrefl _⟩ m n hmp hnp fun c => ⟨fun hc => ?_, fun hc => ?_⟩
  · rw [mem_iff_read hnp hnn, ← h _ (hms c hc)]
    exact (mem_iff_read hmp hmn c).mp hc
  · rw [mem_iff_read hmp hmn, h _ (hns c hc)]
    exact (mem_iff_read hnp hnn c).mp hc

end Sys2Proof.Machine
end

section
/-! The PPU's dots (60_exceptions.md R340–R342): one dot as a whole-state equation, and what a run of dots leaves of each field it
can change, by the positions it passes. -/

namespace Sys2Proof.Machine

/-- The advance within a line or to the next (R340). -/
theorem advanceDot_eq (p : Ppu) : advanceDot p =
    { p with
      dot := if p.dot + 1 = 341 then 0 else p.dot + 1,
      scanline := if p.dot + 1 = 341 then (p.scanline + 1) % 262 else p.scanline } := by
  simp only [advanceDot]
  split <;> rfl

/-- Settles O14: by the event of the position, the start or the end of vertical blank or none, and the advance
(`advanceDot_eq`). -/
theorem ppuDotEvents : Obligations.PpuDotEvents := by
  intro vb s
  by_cases hset : s.ppu.scanline = 241 ∧ s.ppu.dot = vb.val
  · have hclear : ¬ (s.ppu.scanline = 261 ∧ s.ppu.dot = vb.val) := by omega
    have hlatch : decide (s.ppu.scanline = 241 ∧ s.ppu.dot = vb.val ∧ s.ppu.ctrl.getLsbD 7 = true) =
        s.ppu.ctrl.getLsbD 7 := by simp [hset]
    rw [ppuDot, if_pos hset, advanceDot_eq, hlatch]
    simp only [if_pos hset, decide_eq_false hclear, Bool.not_false, Bool.and_true]
    rfl
  · have hlatch : decide (s.ppu.scanline = 241 ∧ s.ppu.dot = vb.val ∧ s.ppu.ctrl.getLsbD 7 = true) = false :=
      decide_eq_false fun h => hset ⟨h.1, h.2.1⟩
    rw [ppuDot, if_neg hset, hlatch]
    simp only [if_neg hset, Bool.or_false]
    by_cases hclear : s.ppu.scanline = 261 ∧ s.ppu.dot = vb.val
    · rw [if_pos hclear, advanceDot_eq]
      simp only [if_pos hclear, decide_eq_true hclear, Bool.not_true, Bool.and_false]
      rfl
    · rw [if_neg hclear, advanceDot_eq]
      simp only [if_neg hclear, decide_eq_false hclear, Bool.not_false, Bool.and_true]
      rfl

/-- The first dot of scanline 241, where vertical blank begins (R340, R342). -/
def vblankStart (vb : Fin 2) : Nat := 341 * 241 + vb.val

/-- The first dot of scanline 261, where vertical blank ends (R340). -/
def vblankEnd (vb : Fin 2) : Nat := 341 * 261 + vb.val

section
variable {vb : Fin 2} {s : State} (hs : s.ppu.scanline < 262) (hd : s.ppu.dot < 341)
include hs hd

/-- The two events by the position (R340). -/
theorem atEvent_iff : ((s.ppu.scanline = 241 ∧ s.ppu.dot = vb.val) ↔ s.ppu.position = vblankStart vb) ∧
    ((s.ppu.scanline = 261 ∧ s.ppu.dot = vb.val) ↔ s.ppu.position = vblankEnd vb) := by
  have hvb := vb.isLt
  simp only [Ppu.position, vblankStart, vblankEnd]
  omega

theorem ppuDot_vblank : (ppuDot vb s).ppu.vblank =
    if s.ppu.position = vblankStart vb then true
    else if s.ppu.position = vblankEnd vb then false else s.ppu.vblank := by
  obtain ⟨hstart, hend⟩ := atEvent_iff (vb := vb) hs hd
  rw [ppuDotEvents vb s]
  simp only [hstart, hend]

theorem ppuDot_nmiLatch : (ppuDot vb s).nmiLatch =
    (s.nmiLatch || (decide (s.ppu.position = vblankStart vb) && s.ppu.ctrl.getLsbD 7)) := by
  obtain ⟨hstart, -⟩ := atEvent_iff (vb := vb) hs hd
  rw [ppuDotEvents vb s]
  simp only [← and_assoc, hstart]
  simp

theorem ppuDot_spriteFlags : (ppuDot vb s).ppu.spriteZero = (s.ppu.spriteZero && !decide (s.ppu.position = vblankEnd vb)) ∧
    (ppuDot vb s).ppu.spriteOverflow = (s.ppu.spriteOverflow && !decide (s.ppu.position = vblankEnd vb)) := by
  obtain ⟨-, hend⟩ := atEvent_iff (vb := vb) hs hd
  rw [ppuDotEvents vb s]
  simp only [hend, and_self]

end

/-- The last of a run of dots. -/
theorem ppuDots_succ (vb : Fin 2) (n : Nat) (s : State) : ppuDots vb (n + 1) s = ppuDot vb (ppuDots vb n s) :=
  ppuDots_add vb n 1 s

/-- The positions that a run of dots from a position finds, modulo a frame. -/
def passes (p n e : Nat) : Prop := ∃ k < n, (p + k) % 89342 = e

theorem passes_succ (p n e : Nat) : passes p (n + 1) e ↔ passes p n e ∨ (p + n) % 89342 = e := by
  constructor
  · rintro ⟨k, hk, h⟩
    rcases Nat.lt_succ_iff_lt_or_eq.mp hk with hk | rfl
    · exact .inl ⟨k, hk, h⟩
    · exact .inr h
  · rintro (⟨k, hk, h⟩ | h)
    · exact ⟨k, by omega, h⟩
    · exact ⟨n, by omega, h⟩

/-- A frame of dots finds every position. -/
theorem passes_frame {p e : Nat} (hp : p < 89342) (he : e < 89342) : passes p 89342 e := by
  by_cases h : p ≤ e
  · exact ⟨e - p, by omega, by omega⟩
  · exact ⟨e + 89342 - p, by omega, by omega⟩

section
variable (vb : Fin 2) {s : State} (hs : s.ppu.scanline < 262) (hd : s.ppu.dot < 341)
include hs hd

/-- A run of dots latches an NMI where it passes the start of vertical blank with ctrl[7] set (R340). -/
theorem ppuDots_nmiLatch (n : Nat) : (ppuDots vb n s).nmiLatch = true ↔
    s.nmiLatch = true ∨ passes s.ppu.position n (vblankStart vb) ∧ s.ppu.ctrl.getLsbD 7 = true := by
  induction n with
  | zero => simp [ppuDots, passes]
  | succ n ih =>
    obtain ⟨hpos, hsn, hdn⟩ := ppuDots_position vb n s hs hd
    have hctrl : (ppuDots vb n s).ppu.ctrl = s.ppu.ctrl := by
      obtain ⟨_, _, _, _, _, _, h⟩ := ppuDots_frame vb n s
      rw [h]
      rfl
    rw [ppuDots_succ, ppuDot_nmiLatch hsn hdn, passes_succ, Bool.or_eq_true, Bool.and_eq_true, decide_eq_true_iff, ih, hpos,
      hctrl]
    tauto

/-- A run of dots clears bits 6 and 5 where it passes the end of vertical blank (R340). -/
theorem ppuDots_spriteFlags (n : Nat) (h : passes s.ppu.position n (vblankEnd vb)) :
    (ppuDots vb n s).ppu.spriteZero = false ∧ (ppuDots vb n s).ppu.spriteOverflow = false := by
  induction n with
  | zero =>
    obtain ⟨k, hk, -⟩ := h
    exact absurd hk (Nat.not_lt_zero k)
  | succ n ih =>
    obtain ⟨hpos, hsn, hdn⟩ := ppuDots_position vb n s hs hd
    obtain ⟨hzero, hoverflow⟩ := ppuDot_spriteFlags (vb := vb) hsn hdn
    rw [ppuDots_succ, hzero, hoverflow, hpos]
    rcases (passes_succ ..).mp h with h | h
    · rw [(ih h).1, (ih h).2]
      exact ⟨rfl, rfl⟩
    · simp [h]

/-- After a run of dots that passed an event, the vblank flag says where the position lies (R340, R342). -/
theorem ppuDots_vblank (n : Nat)
    (h : passes s.ppu.position n (vblankStart vb) ∨ passes s.ppu.position n (vblankEnd vb)) :
    (ppuDots vb n s).ppu.vblank = decide (vblankStart vb < (ppuDots vb n s).ppu.position ∧
      (ppuDots vb n s).ppu.position ≤ vblankEnd vb) := by
  induction n with
  | zero => rcases h with ⟨k, hk, -⟩ | ⟨k, hk, -⟩ <;> exact absurd hk (Nat.not_lt_zero k)
  | succ n ih =>
    have hvb := vb.isLt
    obtain ⟨hpos, hsn, hdn⟩ := ppuDots_position vb n s hs hd
    obtain ⟨hpos', -, -⟩ := ppuDot_position vb (ppuDots vb n s) hsn hdn
    have hlt : (ppuDots vb n s).ppu.position < 89342 := by rw [hpos]; exact Nat.mod_lt _ (by omega)
    rw [passes_succ, passes_succ, ← hpos] at h
    rw [ppuDots_succ, ppuDot_vblank hsn hdn, hpos']
    generalize (ppuDots vb n s).ppu.position = q at *
    split_ifs with hstart hend
    · refine (decide_eq_true ?_).symm
      simp only [vblankStart, vblankEnd] at hstart ⊢
      omega
    · refine (decide_eq_false ?_).symm
      simp only [vblankStart, vblankEnd] at hend ⊢
      omega
    · rw [ih (by tauto), decide_eq_decide]
      simp only [vblankStart, vblankEnd] at hstart hend ⊢
      omega

end

/-- The position determines the scanline and the dot (R340). -/
theorem position_inj {p q : Ppu} (hp : p.dot < 341) (hq : q.dot < 341) (h : p.position = q.position) :
    p.scanline = q.scanline ∧ p.dot = q.dot := by
  simp only [Ppu.position] at h
  omega

/-- Settles O15: a frame passes both events (`passes_frame`) and comes back to its position, so the latch, the two sprite flags and
the vblank flag are what the runs of dots say, and nothing else can change (`ppuDots_frame`). -/
theorem frameOfDots : Obligations.FrameOfDots := by
  intro vb s hs hd
  have hvb := vb.isLt
  have hp : s.ppu.position < 89342 := by simp only [Ppu.position]; omega
  have hstart : passes s.ppu.position 89342 (vblankStart vb) := passes_frame hp (by simp only [vblankStart]; omega)
  have hend : passes s.ppu.position 89342 (vblankEnd vb) := passes_frame hp (by simp only [vblankEnd]; omega)
  obtain ⟨hpos, hsn, hdn⟩ := ppuDots_position vb 89342 s hs hd
  have hpos : (ppuDots vb 89342 s).ppu.position = s.ppu.position := by omega
  have hlatch := ppuDots_nmiLatch vb hs hd 89342
  obtain ⟨hzero, hoverflow⟩ := ppuDots_spriteFlags vb hs hd 89342 hend
  have hvblank := ppuDots_vblank vb hs hd 89342 (.inl hstart)
  obtain ⟨hline, hdot⟩ := position_inj hdn hd hpos
  rw [hpos] at hvblank
  show ppuDots vb 89342 s = _
  obtain ⟨latch, vblank, zero, overflow, scanline, dot, h⟩ := ppuDots_frame vb 89342 s
  rw [h] at hlatch hzero hoverflow hvblank hline hdot ⊢
  have hl : latch = (s.nmiLatch || s.ppu.ctrl.getLsbD 7) := by
    rw [Bool.eq_iff_iff, Bool.or_eq_true]
    exact hlatch.trans (or_congr_right (and_iff_right hstart))
  obtain rfl : zero = false := hzero
  obtain rfl : overflow = false := hoverflow
  obtain rfl : scanline = s.ppu.scanline := hline
  obtain rfl : dot = s.ppu.dot := hdot
  rw [hl, show vblank = _ from hvblank]
  rfl

end Sys2Proof.Machine
end
